-- ==== Sys2Proof/Word.lean ====
section
/-! DEFINITION. The word types of the hfcs core: 32-bit words, 64-bit PID values, 16-bit gyro rates. -/

namespace Sys2Proof

/-- A 32-bit word: an operand word, a register, a response word (spec/00_scope.md R8). -/
abbrev Word := BitVec 32

/-- A 64-bit value: a Q47.16 PID value or a calibration sum (R8, R13). -/
abbrev Dword := BitVec 64

/-- A 16-bit value: a gyro rate or a bias, s16 (R8). -/
abbrev Half := BitVec 16

/-- A register byte address (R60). -/
abbrev RegAddr := BitVec 8

end Sys2Proof
end

