-- ==== Sys2Proof/Config.lean ====
section
/-! DEFINITION. What an implementation fixes and the values the spec leaves unspecified. The free values have no
body: nothing can be proved of the value of any of them (notes/assumptions/2.md). -/

namespace Sys2Proof

/-- Free 32-bit values, by index: the word a violating MAP emits (R101, U1) and the 32-bit elements a violating
CTRL_TICK leaves unspecified (R236, U2). -/
opaque Config.freeWord : Nat → Word

/-- Free 64-bit values, by index: the PID elements a violating gyro-stabilized CTRL_TICK leaves unspecified (R236). -/
opaque Config.freeDword : Nat → Dword

/-- Free bits, by index: WEAPON_EN after a violating CTRL_TICK (R236). -/
opaque Config.freeBit : Nat → Bool

end Sys2Proof
end

