-- ==== Sys2Proof/Syntax.lean ====
section
/-! DEFINITION. Frames, opcodes and the nineteen commands of spec/opcode_table.json. -/

namespace Sys2Proof

/-- PID controller direction (R15, R29). -/
inductive Direction where
  | direct
  | reverse
  deriving DecidableEq, Repr

/-- PID output mode (R15, R29). -/
inductive OutputMode where
  | nonAccumulating
  | accumulating
  deriving DecidableEq, Repr

/-- A command frame as the command port delivers it (R80): word 0 and the operand words. The frame carries its own
length. -/
structure Frame where
  word0    : Word
  operands : List Word
  deriving DecidableEq, Repr

/-- The assigned opcodes (R84), named by their mnemonics. -/
inductive Opcode where
  | nop
  | capWidth
  | capPeriod
  | fsTick
  | map
  | avg
  | sign
  | negabs
  | pidConfigure
  | pidRun
  | pidSetLimits
  | pidSetPeriod
  | pidSetSetpoint
  | calStart
  | calSample
  | loopStart
  | ctrlTick
  | regRead
  | regWrite
  deriving DecidableEq, Repr

/-- The commands with their operands (R83, R84), one constructor per row of the opcode table. A u32 or s32 operand is
a 32-bit vector, a Q47.16 operand a 64-bit one, an s16 operand a 16-bit one, a b1 operand a Bool (R82). -/
inductive Instr where
  /-- NOP (R260). -/
  | nop
  /-- CAP_WIDTH w (R160). -/
  | capWidth (w : Word)
  /-- CAP_PERIOD p, now (R161). -/
  | capPeriod (p now : Word)
  /-- FS_TICK now, fault (R211). -/
  | fsTick (now : Word) (fault : Bool)
  /-- MAP inLow, inHigh, inValue, outLow, outHigh, deadband (R101). -/
  | map (inLow inHigh inValue outLow outHigh deadband : Word)
  /-- AVG a, b (R102). -/
  | avg (a b : Word)
  /-- SIGN x (R103). -/
  | sign (x : Word)
  /-- NEGABS x (R104). -/
  | negabs (x : Word)
  /-- PID_CONFIGURE kp, ki, kd, pidflags, t, outMin, outMax, setPoint (R130). -/
  | pidConfigure (kp ki kd : Dword) (dir : Direction) (omode : OutputMode) (t : Word) (outMin outMax setPoint : Dword)
  /-- PID_RUN meas (R131). -/
  | pidRun (meas : Dword)
  /-- PID_SET_LIMITS min, max (R132). -/
  | pidSetLimits (min max : Dword)
  /-- PID_SET_PERIOD t (R133). -/
  | pidSetPeriod (t : Word)
  /-- PID_SET_SETPOINT sp (R134). -/
  | pidSetSetpoint (sp : Dword)
  /-- CAL_START warmup, n (R190). -/
  | calStart (warmup n : Word)
  /-- CAL_SAMPLE x, y, z, err (R191). -/
  | calSample (x y z : Half) (err : Bool)
  /-- LOOP_START (R230). -/
  | loopStart
  /-- CTRL_TICK gx, gy, gz, gerr (R231). -/
  | ctrlTick (gx gy gz : Half) (gerr : Bool)
  /-- REG_READ addr (R261). -/
  | regRead (addr : RegAddr)
  /-- REG_WRITE addr, value (R262). -/
  | regWrite (addr : RegAddr) (value : Word)
  deriving DecidableEq, Repr

end Sys2Proof
end

