-- ==== Sys2Proof/WellFormed.lean ====
section
/-! DEFINITION. Legality of a command frame: the four conditions of spec/30_encoding.md R86. Every term of `Instr` is
well formed, because each operand's type is exactly as wide as its field (R82): the checks of this hardware are checks
on frames. They are written from R83 and R84 apart from the decoder, so that the two can be compared. -/

namespace Sys2Proof

/-- The assigned OP values of R84, each with its number L of operand words (R83). -/
def Frame.operandTable : List (Nat × Nat) :=
  [(0x00, 0), (0x10, 1), (0x11, 2), (0x20, 2), (0x30, 6), (0x31, 2), (0x32, 1), (0x33, 1), (0x40, 14), (0x41, 2)] ++
  [(0x42, 4), (0x43, 1), (0x44, 2), (0x50, 2), (0x51, 4), (0x60, 0), (0x61, 4), (0x70, 0), (0x71, 1)]

/-- OP, ADDR and RSVD of word 0 as numbers (R81). -/
def Frame.op (f : Frame) : Nat := f.word0.toNat % 2 ^ 8

/-- ADDR, bits 15:8 of word 0 (R81). -/
def Frame.addr (f : Frame) : Nat := f.word0.toNat / 2 ^ 8 % 2 ^ 8

/-- RSVD, bits 31:16 of word 0 (R81). -/
def Frame.rsvd (f : Frame) : Nat := f.word0.toNat / 2 ^ 16

/-- R86, first condition turned round: OP is in the table of R84. -/
def Frame.opAssigned (f : Frame) : Bool := Frame.operandTable.any (fun row => row.1 == f.op)

/-- R86, second condition turned round: RSVD is 0. -/
def Frame.rsvdZero (f : Frame) : Bool := f.rsvd == 0

/-- R86, third condition turned round: ADDR is 0 unless OP is REG_READ or REG_WRITE. -/
def Frame.addrAllowed (f : Frame) : Bool := f.addr == 0 || f.op == 0x70 || f.op == 0x71

/-- R86, fourth condition turned round: the frame has 1 + L(OP) words. -/
def Frame.lengthRight (f : Frame) : Bool :=
  Frame.operandTable.any (fun row => row.1 == f.op && row.2 == f.operands.length)

/-- A frame is legal when none of the conditions of R86 holds. -/
def Frame.legal (f : Frame) : Bool := f.opAssigned && f.rsvdZero && f.addrAllowed && f.lengthRight

end Sys2Proof
end

