-- ==== Sys2Proof/Decode.lean ====
section
/-! DEFINITION. Decoding of command frames, total on every frame and refusing by name, and the encoder
(spec/30_encoding.md R80 to R87). -/

namespace Sys2Proof

/-- Why a frame is illegal (R86). -/
inductive DecodeError where
  /-- OP is not in the table of R84 (R86, R87). -/
  | reservedOpcode
  /-- RSVD ≠ 0. -/
  | reservedBits
  /-- ADDR ≠ 0 on a command that is neither REG_READ nor REG_WRITE. -/
  | addrNotZero
  /-- The frame length is not 1 + L(OP). -/
  | wrongLength
  deriving DecidableEq, Repr

/-- OP, bits 7:0 of word 0 (R81). -/
def opField (w : Word) : BitVec 8 := w.extractLsb' 0 8

/-- ADDR, bits 15:8 of word 0 (R81). -/
def addrField (w : Word) : RegAddr := w.extractLsb' 8 8

/-- RSVD, bits 31:16 of word 0 (R81). -/
def rsvdField (w : Word) : BitVec 16 := w.extractLsb' 16 16

/-- The OP value of each command (R84). -/
def Opcode.code : Opcode → BitVec 8
  | .nop => 0x00
  | .capWidth => 0x10
  | .capPeriod => 0x11
  | .fsTick => 0x20
  | .map => 0x30
  | .avg => 0x31
  | .sign => 0x32
  | .negabs => 0x33
  | .pidConfigure => 0x40
  | .pidRun => 0x41
  | .pidSetLimits => 0x42
  | .pidSetPeriod => 0x43
  | .pidSetSetpoint => 0x44
  | .calStart => 0x50
  | .calSample => 0x51
  | .loopStart => 0x60
  | .ctrlTick => 0x61
  | .regRead => 0x70
  | .regWrite => 0x71

/-- L, the number of operand words of each command (R83). -/
def Opcode.operandWords : Opcode → Nat
  | .nop | .loopStart | .regRead => 0
  | .capWidth | .regWrite | .sign | .negabs | .pidSetPeriod => 1
  | .capPeriod | .calStart | .fsTick | .avg | .pidRun | .pidSetSetpoint => 2
  | .pidSetLimits | .calSample | .ctrlTick => 4
  | .map => 6
  | .pidConfigure => 14

/-- Every opcode, in the order of R84. -/
def Opcode.all : List Opcode :=
  [.nop, .capWidth, .capPeriod, .fsTick, .map, .avg, .sign, .negabs, .pidConfigure, .pidRun] ++
  [.pidSetLimits, .pidSetPeriod, .pidSetSetpoint, .calStart, .calSample, .loopStart, .ctrlTick, .regRead, .regWrite]

/-- The command an OP value names; none where OP is reserved (R87). -/
def Opcode.ofCode (c : BitVec 8) : Option Opcode := Opcode.all.find? (fun o => o.code == c)

/-- The commands whose word 0 carries a register address (R81). -/
def Opcode.usesAddr : Opcode → Bool
  | .regRead | .regWrite => true
  | _ => false

/-- An s64 operand from its two words, low word first (R82). -/
def dwordOf (lo hi : Word) : Dword := hi ++ lo

/-- The low word of a 64-bit value (R62). -/
def loWord (d : Dword) : Word := d.extractLsb' 0 32

/-- The high word of a 64-bit value (R62). -/
def hiWord (d : Dword) : Word := d.extractLsb' 32 32

/-- An s16 operand: bits 15:0 of its word; bits 31:16 are ignored (R82). -/
def halfOf (w : Word) : Half := w.extractLsb' 0 16

/-- A b1 operand: bit 0 of its word; bits 31:1 are ignored (R82). -/
def bitOf (w : Word) : Bool := w.getLsbD 0

/-- DIR, bit 0 of the pidflags word (R82; codes R15). -/
def dirOf (w : Word) : Direction := if w.getLsbD 0 then .reverse else .direct

/-- OMODE, bit 1 of the pidflags word (R82; codes R15). -/
def omodeOf (w : Word) : OutputMode := if w.getLsbD 1 then .accumulating else .nonAccumulating

/-- The operands of a command, taken from its operand words by its format (R82, R83); none where the number of
words is wrong. -/
def assemble (o : Opcode) (addr : RegAddr) (ws : List Word) : Option Instr :=
  match o with
  | .nop => match ws with
    | [] => some .nop
    | _ => none
  | .capWidth => match ws with
    | [w] => some (.capWidth w)
    | _ => none
  | .capPeriod => match ws with
    | [p, now] => some (.capPeriod p now)
    | _ => none
  | .fsTick => match ws with
    | [now, fault] => some (.fsTick now (bitOf fault))
    | _ => none
  | .map => match ws with
    | [inLow, inHigh, inValue, outLow, outHigh, deadband] => some (.map inLow inHigh inValue outLow outHigh deadband)
    | _ => none
  | .avg => match ws with
    | [a, b] => some (.avg a b)
    | _ => none
  | .sign => match ws with
    | [x] => some (.sign x)
    | _ => none
  | .negabs => match ws with
    | [x] => some (.negabs x)
    | _ => none
  | .pidConfigure => match ws with
    | [kp0, kp1, ki0, ki1, kd0, kd1, flags, t, min0, min1, max0, max1, sp0, sp1] =>
      some (.pidConfigure (dwordOf kp0 kp1) (dwordOf ki0 ki1) (dwordOf kd0 kd1) (dirOf flags) (omodeOf flags) t
        (dwordOf min0 min1) (dwordOf max0 max1) (dwordOf sp0 sp1))
    | _ => none
  | .pidRun => match ws with
    | [m0, m1] => some (.pidRun (dwordOf m0 m1))
    | _ => none
  | .pidSetLimits => match ws with
    | [min0, min1, max0, max1] => some (.pidSetLimits (dwordOf min0 min1) (dwordOf max0 max1))
    | _ => none
  | .pidSetPeriod => match ws with
    | [t] => some (.pidSetPeriod t)
    | _ => none
  | .pidSetSetpoint => match ws with
    | [s0, s1] => some (.pidSetSetpoint (dwordOf s0 s1))
    | _ => none
  | .calStart => match ws with
    | [warmup, n] => some (.calStart warmup n)
    | _ => none
  | .calSample => match ws with
    | [x, y, z, err] => some (.calSample (halfOf x) (halfOf y) (halfOf z) (bitOf err))
    | _ => none
  | .loopStart => match ws with
    | [] => some .loopStart
    | _ => none
  | .ctrlTick => match ws with
    | [gx, gy, gz, gerr] => some (.ctrlTick (halfOf gx) (halfOf gy) (halfOf gz) (bitOf gerr))
    | _ => none
  | .regRead => match ws with
    | [] => some (.regRead addr)
    | _ => none
  | .regWrite => match ws with
    | [value] => some (.regWrite addr value)
    | _ => none

/-- Decode one frame (R80 to R87). The tests of R86 stand in the order OP, RSVD, ADDR, length; which of them an
illegal frame fails has no effect on the block (R86). -/
def decode (f : Frame) : Except DecodeError Instr :=
  match Opcode.ofCode (opField f.word0) with
  | none => .error .reservedOpcode
  | some o =>
    if rsvdField f.word0 ≠ 0 then .error .reservedBits
    else if addrField f.word0 ≠ 0 ∧ o.usesAddr = false then .error .addrNotZero
    else
      match assemble o (addrField f.word0) f.operands with
      | some i => .ok i
      | none => .error .wrongLength

/-! The encoder, from the same tables. -/

/-- The opcode of a command. -/
def Instr.opcode : Instr → Opcode
  | .nop => .nop
  | .capWidth _ => .capWidth
  | .capPeriod _ _ => .capPeriod
  | .fsTick _ _ => .fsTick
  | .map _ _ _ _ _ _ => .map
  | .avg _ _ => .avg
  | .sign _ => .sign
  | .negabs _ => .negabs
  | .pidConfigure _ _ _ _ _ _ _ _ _ => .pidConfigure
  | .pidRun _ => .pidRun
  | .pidSetLimits _ _ => .pidSetLimits
  | .pidSetPeriod _ => .pidSetPeriod
  | .pidSetSetpoint _ => .pidSetSetpoint
  | .calStart _ _ => .calStart
  | .calSample _ _ _ _ => .calSample
  | .loopStart => .loopStart
  | .ctrlTick _ _ _ _ => .ctrlTick
  | .regRead _ => .regRead
  | .regWrite _ _ => .regWrite

/-- ADDR of a command: the register address of REG_READ and REG_WRITE, 0 for every other command (R81). -/
def Instr.addr : Instr → RegAddr
  | .regRead a => a
  | .regWrite a _ => a
  | _ => 0

/-- The two words of an s64 operand, low word first (R82). -/
def wordsOf (d : Dword) : List Word := [loWord d, hiWord d]

/-- The word of an s16 operand; its ignored bits are the sign, as in the frames of spec/95_test_vectors.md
(DESIGN CHOICE, notes/assumptions/9.md). -/
def wordOfHalf (h : Half) : Word := h.signExtend 32

/-- The word of a b1 operand; its ignored bits are 0 (DESIGN CHOICE, notes/assumptions/9.md). -/
def wordOfBit (b : Bool) : Word := if b then 1 else 0

/-- The pidflags word; its ignored bits are 0 (R82; DESIGN CHOICE, notes/assumptions/9.md). -/
def wordOfFlags (d : Direction) (m : OutputMode) : Word :=
  (match m with
    | .accumulating => 2
    | .nonAccumulating => 0) +
  (match d with
    | .reverse => 1
    | .direct => 0)

/-- The operand words of a command in the order of its format (R83). -/
def Instr.operandList : Instr → List Word
  | .nop => []
  | .capWidth w => [w]
  | .capPeriod p now => [p, now]
  | .fsTick now fault => [now, wordOfBit fault]
  | .map inLow inHigh inValue outLow outHigh deadband => [inLow, inHigh, inValue, outLow, outHigh, deadband]
  | .avg a b => [a, b]
  | .sign x => [x]
  | .negabs x => [x]
  | .pidConfigure kp ki kd dir omode t outMin outMax setPoint =>
    wordsOf kp ++ wordsOf ki ++ wordsOf kd ++ [wordOfFlags dir omode, t] ++
      wordsOf outMin ++ wordsOf outMax ++ wordsOf setPoint
  | .pidRun meas => wordsOf meas
  | .pidSetLimits min max => wordsOf min ++ wordsOf max
  | .pidSetPeriod t => [t]
  | .pidSetSetpoint sp => wordsOf sp
  | .calStart warmup n => [warmup, n]
  | .calSample x y z err => [wordOfHalf x, wordOfHalf y, wordOfHalf z, wordOfBit err]
  | .loopStart => []
  | .ctrlTick gx gy gz gerr => [wordOfHalf gx, wordOfHalf gy, wordOfHalf gz, wordOfBit gerr]
  | .regRead _ => []
  | .regWrite _ value => [value]

/-- Word 0 from its fields, RSVD 0 (R81). -/
def word0Of (c : BitVec 8) (a : RegAddr) : Word := (0 : BitVec 16) ++ a ++ c

/-- The frame of a command (R80 to R84). -/
def encode (i : Instr) : Frame := ⟨word0Of i.opcode.code i.addr, i.operandList⟩

/-! The opcode table's words, for the host's questions. -/

/-- L of an OP value, 0 where OP is reserved. -/
def operandWordsOf (c : BitVec 8) : Nat :=
  match Opcode.ofCode c with
  | some o => o.operandWords
  | none => 0

/-- The frame whose bits are w, numbered as the opcode table numbers them: word 0 is bits 31:0, operand word j is
bits 32j+63 : 32j+32, and every bit from nbits on is 0. The frame has the length its opcode gives (R85), or more
where nbits reaches further. -/
def frameOfTableWord (nbits w : Nat) : Frame :=
  let bits := w % 2 ^ nbits
  let word0 : Word := BitVec.ofNat 32 bits
  let l := max (operandWordsOf (opField word0)) ((nbits + 31) / 32 - 1)
  ⟨word0, (List.range l).map (fun j => BitVec.ofNat 32 (bits >>> (32 * (j + 1))))⟩

/-- The command the decoder reads from the table's word w. -/
def decodeTableWord (nbits w : Nat) : Option Instr :=
  match decode (frameOfTableWord nbits w) with
  | .ok i => some i
  | .error _ => none

end Sys2Proof
end

