-- ==== Sys2Proof/Machine/State.lean ====
section
/-! DEFINITION. The state of the block, one structure per rule of spec/10_state.md, and its environment; the reasons a
step can stop; the state after reset. -/

namespace Sys2Proof.Machine

/-- Decoder phase (R21). -/
inductive Phase where
  | seeking
  | accumulating
  deriving DecidableEq, Repr

/-- ControlMode (R24). -/
inductive ControlMode where
  | manual
  | gyroStabilized
  deriving DecidableEq, Repr

/-- CAL_STATE (R26). Codes 5 to 7 are never written (U8). -/
inductive CalPhase where
  | idle
  | warmup
  | accumulate
  | done
  | failed
  deriving DecidableEq, Repr

/-- CONFIG.FAULT_POLICY (R27). -/
inductive FaultPolicy where
  | inert
  | cutWeapon
  deriving DecidableEq, Repr

/-- CONFIG.GYRO_ERR_POLICY (R27). -/
inductive GyroErrPolicy where
  | manualThisTick
  | neutralThisTick
  deriving DecidableEq, Repr

/-- PulseAccumulator (R21). -/
structure PulseAccumulator where
  phase    : Phase
  index    : BitVec 3
  buf      : Vector Word 5
  negWidth : Word
  deriving DecidableEq, Repr

/-- ChannelState, with the sequence counter (R22). -/
structure ChannelState where
  ch       : Vector Word 5
  valid    : Bool
  tCommit  : Word
  frameSeq : Word
  deriving DecidableEq, Repr

/-- Observability indicators (R23). -/
structure Indicators where
  frameInd : Bool
  losInd   : Bool
  loopInd  : Bool
  deriving DecidableEq, Repr

/-- Control-sequencer state with the motor outputs (R24). -/
structure ControlSequencer where
  loopRun      : Bool
  mode         : ControlMode
  gyroFallback : Bool
  driveLeft    : Word
  driveRight   : Word
  weaponWidth  : Word
  weaponEn     : Bool
  deriving DecidableEq, Repr

/-- Failsafe state (R25). -/
structure FailsafeState where
  faultIn    : Bool
  faultLatch : Bool
  deriving DecidableEq, Repr

/-- Calibrator state; axis 0 is x, 1 is y, 2 is z (R26). -/
structure CalibratorState where
  calState : CalPhase
  calRem   : Word
  calN     : Word
  calCnt   : Word
  calSum   : Vector Dword 3
  bias     : Vector Half 3
  deriving DecidableEq, Repr

/-- Decoder and failsafe configuration (R27). -/
structure InputConfig where
  syncGap       : Word
  pulseMin      : BitVec 16
  pulseMax      : BitVec 16
  neutral       : BitVec 16
  timeout       : Word
  recenter      : Bool
  faultPolicy   : FaultPolicy
  gyroErrPolicy : GyroErrPolicy
  deriving DecidableEq, Repr

/-- Control-loop configuration (R28). -/
structure LoopConfig where
  inLow       : Word
  inHigh      : Word
  chDeadband  : BitVec 31
  driveRange  : BitVec 31
  outDeadband : BitVec 31
  weaponRange : BitVec 31
  yawFs       : BitVec 31
  deriving DecidableEq, Repr

/-- PidState (R29). -/
structure PidState where
  zp       : Dword
  zi       : Dword
  zd       : Dword
  dir      : Direction
  omode    : OutputMode
  period   : Word
  outMin   : Dword
  outMax   : Dword
  setpoint : Dword
  integral : Dword
  prevMeas : Dword
  prevOut  : Dword
  runCount : Word
  deriving DecidableEq, Repr

/-- The sticky error bits (R30). -/
structure ErrorBits where
  illegalOp : Bool
  badReg    : Bool
  mapDomain : Bool
  deriving DecidableEq, Repr

/-- One of the three error bits (R30, R282). -/
inductive ErrorBit where
  | illegalOp
  | badReg
  | mapDomain
  deriving DecidableEq, Repr

/-- The command sources (R6). -/
inductive Agent where
  /-- CAP, the timer-capture source. -/
  | cap
  /-- CTL, the control-tick strobe. -/
  | ctl
  /-- FS, the failsafe-tick strobe. -/
  | fs
  /-- GYR, the gyro sample source during calibration. -/
  | gyr
  /-- HOST, the configuring agent. -/
  | host
  deriving DecidableEq, Repr

/-- What the environment does next (notes/assumptions/1.md). -/
inductive Event where
  /-- The next commands of these agents reach the port in the same cycle (R285). One agent alone in the list admits
  every interleaving of the agents' streams (R72). -/
  | arrive (who : List Agent)
  /-- The `rst` line is driven to this level (R310, R324). -/
  | rst (level : Bool)
  /-- The host takes the oldest word from the response port (R311). -/
  | take
  deriving DecidableEq, Repr

/-- The agents' command streams: the frames each agent has yet to send, the next one first (R72). -/
structure Streams where
  cap  : List Frame
  ctl  : List Frame
  fs   : List Frame
  gyr  : List Frame
  host : List Frame
  deriving DecidableEq, Repr

/-- The block's environment: the level of `rst`, the agents' streams, and the events to come (R10, R72). It is no
register of the block (notes/assumptions/1.md). DESIGN CHOICE, notes/assumptions/13.md: the tick periods P_CTRL_PERIOD and
P_FS_PERIOD and the sequence of `now`, which the spec leaves to the model (D63 to D65), are held by no field: they show
only as the places of the arrivals in `schedule` and as operands of the frames in `streams`. -/
structure Environment where
  rst      : Bool
  streams  : Streams
  schedule : List Event
  deriving DecidableEq, Repr

/-- The whole machine: the block's elements (R21 to R30), the words on the response port (R88), the environment, and
the index of the next free value (notes/assumptions/2.md). -/
structure State where
  dec  : PulseAccumulator
  chan : ChannelState
  ind  : Indicators
  seq  : ControlSequencer
  fs   : FailsafeState
  cal  : CalibratorState
  inp  : InputConfig
  loop : LoopConfig
  pid  : PidState
  err  : ErrorBits
  resp : List Word
  env  : Environment
  free : Nat
  deriving DecidableEq, Repr

/-- Why a step stops with a fault. No command of the spec stops the block (R77, R280): each reason is raised only in a
state that breaks an invariant of R37 or R192, which no run from reset reaches, where the rule has no value to give
(notes/assumptions/5.md). All three are safe. -/
inductive Fault where
  /-- Raised by CAP_PERIOD where PHASE is Accumulating and INDEX is 4 or more: a slot past BUF[4] (R37 item 2). Safe. -/
  | noSuchSlot
  /-- Raised by PID_SET_PERIOD where PERIOD is 0: a division by zero, which R12 excludes (R37 item 6). Safe. -/
  | divisorZero
  /-- Raised by CAL_SAMPLE where a counter, a sum or a mean does not fit its element; R11 lets nothing overflow
  (R37 items 10 and 11, R192). Safe. -/
  | valueOutOfRange
  deriving DecidableEq, Repr

/-- Why a step refuses a command. -/
inductive Refusal where
  /-- Raised by exec for an instruction that has no meaning yet. Safe. No arm raises it. -/
  | notModelled (mnemonic : String)
  deriving DecidableEq, Repr

/-- The state after reset (R310, R311), with nothing yet sent to the block. -/
def State.reset : State where
  dec  := { phase := .seeking, index := 0, buf := #v[0, 0, 0, 0, 0], negWidth := 0 }
  chan := { ch := #v[0, 0, 0, 0, 0], valid := false, tCommit := 0, frameSeq := 0 }
  ind  := { frameInd := false, losInd := false, loopInd := false }
  seq  := { loopRun := false, mode := .manual, gyroFallback := false,
            driveLeft := 0, driveRight := 0, weaponWidth := 0, weaponEn := false }
  fs   := { faultIn := false, faultLatch := false }
  cal  := { calState := .idle, calRem := 0, calN := 0, calCnt := 0, calSum := #v[0, 0, 0], bias := #v[0, 0, 0] }
  inp  := { syncGap := 5000, pulseMin := 800, pulseMax := 2200, neutral := 1500, timeout := 500000,
            recenter := false, faultPolicy := .inert, gyroErrPolicy := .manualThisTick }
  loop := { inLow := 1000, inHigh := 2000, chDeadband := 0, driveRange := 0, outDeadband := 0,
            weaponRange := 0, yawFs := 0 }
  pid  := { zp := 0, zi := 0, zd := 0, dir := .direct, omode := .nonAccumulating, period := 5,
            outMin := 0, outMax := 0, setpoint := 0, integral := 0, prevMeas := 0, prevOut := 0, runCount := 0 }
  err  := { illegalOp := false, badReg := false, mapDomain := false }
  resp := []
  env  := { rst := false, streams := { cap := [], ctl := [], fs := [], gyr := [], host := [] }, schedule := [] }
  free := 0

end Sys2Proof.Machine
end

