-- ==== Sys2Proof/Machine/Operands.lean ====
section
/-! DEFINITION. Operand values and the arithmetic primitives of spec/00_scope.md R11 to R13. Every value is a
mathematical integer; it narrows only at a named saturation, wrap, clamp or checked store. -/

namespace Sys2Proof.Machine

/-- `tdiv(a, b)`, the quotient rounded toward zero, for b ≠ 0 (R12). -/
def tdiv (a b : Int) : Int := Int.tdiv a b

/-- `fdiv(a, b)`, the quotient rounded toward minus infinity, for b > 0 (R12). -/
def fdiv (a b : Int) : Int := Int.fdiv a b

/-- `sign(x)` (R12). -/
def signOf (x : Int) : Int := if x < 0 then -1 else if x = 0 then 0 else 1

/-- `negabs(x)` (R12). -/
def negabs (x : Int) : Int := if x ≤ 0 then x else -x

/-- `abs(x)` (R12). -/
def absOf (x : Int) : Int := if x < 0 then -x else x

/-- `clamp(x, lo, hi)`, used only where lo ≤ hi (R12). -/
def clamp (x lo hi : Int) : Int := if x < lo then lo else if x > hi then hi else x

/-- `sat_N(x)` (R12). -/
def sat (n : Nat) (x : Int) : Int := clamp x (-2 ^ (n - 1)) (2 ^ (n - 1) - 1)

/-- `satinc_N(x)` on an element that holds x (R12). -/
def satinc (n : Nat) (x : BitVec n) : BitVec n := if x.toNat < 2 ^ n - 1 then x + 1 else x

/-- `ONE` of Q47.16 (R13). -/
def fxOne : Int := 2 ^ 16

/-- `fx(i)`, an integer as Q47.16 (R13). -/
def fx (i : Int) : Int := i * fxOne

/-- `unfx(v)`, the integer part of a Q47.16 value, rounded toward zero (R13). -/
def unfx (v : Int) : Int := tdiv v fxOne

/-- `mulfx(a, b)`, the exact product rounded once toward zero (R13). -/
def mulfx (a b : Int) : Int := tdiv (a * b) fxOne

/-- The value of an s32, s64 or s16 element or operand (R11, R82). -/
abbrev sval {n : Nat} (x : BitVec n) : Int := x.toInt

/-- The value of a u32, u31 or u16 element or operand (R11, R82). -/
abbrev uval {n : Nat} (x : BitVec n) : Int := x.toNat

/-- The N-bit pattern of a value that fits (R11). -/
def pattern (n : Nat) (x : Int) : BitVec n := BitVec.ofInt n x

/-- A checked store of x into uN: none where x does not fit, because an overflow is never implicit (R11). -/
def fitU (n : Nat) (x : Int) : Option (BitVec n) := if 0 ≤ x ∧ x < 2 ^ n then some (pattern n x) else none

/-- A checked store of x into sN (R11). -/
def fitS (n : Nat) (x : Int) : Option (BitVec n) :=
  if -2 ^ (n - 1) ≤ x ∧ x < 2 ^ (n - 1) then some (pattern n x) else none

/-- A one-bit field as a number of N bits. -/
def bitWord (n : Nat) (b : Bool) : BitVec n := if b then 1 else 0

end Sys2Proof.Machine
end

