-- ==== Sys2Proof/Machine/Flags.lean ====
section
/-! DEFINITION. The flags of the block (spec/10_state.md R39) as the words the host reads: the numeric codes (R15) and
STATUS, DEC_STATE, CONFIG and PID_FLAGS (R32 to R35, R263). The block has no condition codes. -/

namespace Sys2Proof.Machine

/-- Seeking 0, Accumulating 1 (R15). -/
def Phase.code : Phase → BitVec 1
  | .seeking => 0
  | .accumulating => 1

/-- Manual 0, GyroStabilized 1 (R15). -/
def ControlMode.code : ControlMode → BitVec 1
  | .manual => 0
  | .gyroStabilized => 1

/-- Idle 0, Warmup 1, Accumulate 2, Done 3, Failed 4 (R15). -/
def CalPhase.code : CalPhase → BitVec 3
  | .idle => 0
  | .warmup => 1
  | .accumulate => 2
  | .done => 3
  | .failed => 4

/-- Inert 0, CutWeapon 1 (R27). -/
def FaultPolicy.code : FaultPolicy → BitVec 1
  | .inert => 0
  | .cutWeapon => 1

/-- ManualThisTick 0, NeutralThisTick 1 (R27). -/
def GyroErrPolicy.code : GyroErrPolicy → BitVec 1
  | .manualThisTick => 0
  | .neutralThisTick => 1

/-- Direct 0, Reverse 1 (R15). -/
def dirCode : Direction → BitVec 1
  | .direct => 0
  | .reverse => 1

/-- NonAccumulating 0, Accumulating 1 (R15). -/
def omodeCode : OutputMode → BitVec 1
  | .nonAccumulating => 0
  | .accumulating => 1

/-- STATUS as the concatenation of R263 (layout R32). -/
def State.statusWord (s : State) : Word :=
  (0 : BitVec 13) ++ bitWord 1 s.err.mapDomain ++ bitWord 1 s.err.badReg ++ bitWord 1 s.err.illegalOp ++
    (0 : BitVec 4) ++ s.cal.calState.code ++ bitWord 1 s.fs.faultLatch ++ bitWord 1 s.fs.faultIn ++
    bitWord 1 s.seq.loopRun ++ bitWord 1 s.seq.gyroFallback ++ s.seq.mode.code ++ bitWord 1 s.ind.loopInd ++
    bitWord 1 s.ind.frameInd ++ bitWord 1 s.ind.losInd ++ bitWord 1 s.chan.valid

/-- DEC_STATE (R33, R263). -/
def State.decStateWord (s : State) : Word := (0 : BitVec 28) ++ s.dec.index ++ s.dec.phase.code

/-- CONFIG (R34, R263). -/
def State.configWord (s : State) : Word :=
  (0 : BitVec 29) ++ s.inp.gyroErrPolicy.code ++ s.inp.faultPolicy.code ++ bitWord 1 s.inp.recenter

/-- PID_FLAGS (R35, R263). -/
def State.pidFlagsWord (s : State) : Word := (0 : BitVec 30) ++ omodeCode s.pid.omode ++ dirCode s.pid.dir

/-- FAULT_POLICY from its bit (R34). -/
def faultPolicyOf (b : Bool) : FaultPolicy := if b then .cutWeapon else .inert

/-- GYRO_ERR_POLICY from its bit (R34). -/
def gyroErrPolicyOf (b : Bool) : GyroErrPolicy := if b then .neutralThisTick else .manualThisTick

end Sys2Proof.Machine
end

