-- ==== Sys2Proof/Machine/Ops.lean ====
section
/-! DEFINITION. The named operations that the meanings share: `emit`, `raise Error(E)` (the block's whole exception
mechanism, R280), the response with an unspecified word, the neutral outputs, the gyro fallback, the state a contract
violation leaves, and the output signals. -/

namespace Sys2Proof.Machine

/-- `emit(v)`: result words go on the response port in command order (R14, R88). -/
def State.emit (s : State) (ws : List Word) : State := { s with resp := s.resp ++ ws }

/-- `raise Error(E)`: sets the sticky bit E and nothing else (R14, R281). No trap is taken (R280). -/
def State.raise (s : State) (e : ErrorBit) : State :=
  match e with
  | .illegalOp => { s with err := { s.err with illegalOp := true } }
  | .badReg => { s with err := { s.err with badReg := true } }
  | .mapDomain => { s with err := { s.err with mapDomain := true } }

/-- Emits one word whose value the spec leaves unspecified (R101, U1): a free value (notes/assumptions/2.md). -/
def State.emitFree (s : State) : State := { s.emit [Config.freeWord s.free] with free := s.free + 1 }

/-- `neutral()`: zero commands to all motor outputs (R231). -/
def State.neutral (s : State) : State :=
  { s with seq := { s.seq with driveLeft := 0, driveRight := 0, weaponWidth := 0, weaponEn := false } }

/-- The gyro fallback: MODE becomes Manual and GYRO_FALLBACK is set (R191, R231). -/
def State.gyroFall (s : State) : State := { s with seq := { s.seq with mode := .manual, gyroFallback := true } }

/-- The weapon forced idle: `setWidth(0)` and `setMode(false)` (R211, R231). -/
def State.weaponIdle (s : State) : State := { s with seq := { s.seq with weaponWidth := 0, weaponEn := false } }

/-- The four outputs of a tick (R231). -/
def State.drive (s : State) (left right width : Word) (en : Bool) : State :=
  { s with seq := { s.seq with driveLeft := left, driveRight := right, weaponWidth := width, weaponEn := en } }

/-- The PID elements a violating gyro-stabilized tick leaves unspecified (R236, U2), as free values. -/
def PidState.scramble (p : PidState) (k : Nat) : PidState :=
  { p with
    setpoint := Config.freeDword k
    integral := Config.freeDword (k + 1)
    prevMeas := Config.freeDword (k + 2)
    prevOut := Config.freeDword (k + 3)
    runCount := Config.freeWord (k + 3) }

/-- `contractViolation(mode)` (R236): ERR_MAP_DOMAIN; the outputs, and in GyroStabilized mode the PID's set-point and
running memory, take free values (notes/assumptions/2.md). -/
def State.contractViolation (s : State) (mode : ControlMode) : State :=
  { (s.raise .mapDomain).drive (Config.freeWord s.free) (Config.freeWord (s.free + 1)) (Config.freeWord (s.free + 2))
      (Config.freeBit s.free) with
    pid := match mode with
      | .gyroStabilized => s.pid.scramble s.free
      | .manual => s.pid
    free := s.free + 4 }

/-- The output signals of R7. -/
structure Outputs where
  driveLeft    : Word
  driveRight   : Word
  weaponWidth  : Word
  weaponEnable : Bool
  frameInd     : Bool
  losInd       : Bool
  loopInd      : Bool
  deriving DecidableEq, Repr

/-- Each output signal is a continuous copy of a state element (R7). -/
def State.outputs (s : State) : Outputs where
  driveLeft := s.seq.driveLeft
  driveRight := s.seq.driveRight
  weaponWidth := s.seq.weaponWidth
  weaponEnable := s.seq.weaponEn
  frameInd := s.ind.frameInd
  losInd := s.ind.losInd
  loopInd := s.ind.loopInd

end Sys2Proof.Machine
end

