-- ==== Sys2Proof/Machine/Pid.lean ====
section
/-! DEFINITION. The PidController (spec/41_pid.md). -/

namespace Sys2Proof.Machine

/-- A gain negated where the direction is Reverse (R130). -/
def directed (dir : Direction) (z : Int) : Int :=
  match dir with
  | .direct => z
  | .reverse => -z

/-- `zi` of PID_CONFIGURE before the direction (R130). -/
def integralGain (ki t : Int) : Int := sat 64 (tdiv (ki * t) 1000)

/-- `zd` of PID_CONFIGURE before the direction (R130). -/
def derivativeGain (kd t : Int) : Int := sat 64 (tdiv (kd * 1000) t)

/-- The PID elements after an accepted PID_CONFIGURE (R130). -/
def PidState.configured (kp ki kd : Dword) (dir : Direction) (omode : OutputMode) (t : Word)
    (outMin outMax setPoint : Dword) : PidState where
  zp := pattern 64 (directed dir (sval kp))
  zi := pattern 64 (directed dir (integralGain (sval ki) (sval t)))
  zd := pattern 64 (directed dir (derivativeGain (sval kd) (sval t)))
  dir := dir
  omode := omode
  period := t
  outMin := outMin
  outMax := outMax
  setpoint := setPoint
  integral := 0
  prevMeas := 0
  prevOut := 0
  runCount := 0

/-- PID_CONFIGURE refuses a negative gain, a non-positive period and inverted limits (R130, R283). -/
def configureRefused (kp ki kd : Dword) (t : Word) (outMin outMax : Dword) : Bool :=
  decide (sval kp < 0) || decide (sval ki < 0) || decide (sval kd < 0) || decide (sval t ≤ 0) ||
    decide (sval outMin ≥ sval outMax)

/-- PID_CONFIGURE (R130). -/
def execPidConfigure (kp ki kd : Dword) (dir : Direction) (omode : OutputMode) (t : Word)
    (outMin outMax setPoint : Dword) (s : State) : Host.Outcome State Fault Refusal :=
  if configureRefused kp ki kd t outMin outMax then .next s
  else .next { s with pid := PidState.configured kp ki kd dir omode t outMin outMax setPoint }

/-- The error term `e` of a PID step (R131). -/
def PidState.error (p : PidState) (meas : Int) : Int := sval p.setpoint - meas

/-- The clamp to [OUT_MIN, OUT_MAX] (R131). -/
def PidState.limit (p : PidState) (x : Int) : Int := clamp x (sval p.outMin) (sval p.outMax)

/-- The integral `i` of a PID step (R131). -/
def PidState.stepIntegral (p : PidState) (meas : Int) : Int :=
  p.limit (sval p.integral + mulfx (sval p.zi) (p.error meas))

/-- The derivative `d` of a PID step, suppressed on the first run (R131, R136). -/
def PidState.stepDerivative (p : PidState) (meas : Int) : Int :=
  if p.runCount = 0 then 0 else -mulfx (sval p.zd) (meas - sval p.prevMeas)

/-- `raw` of a PID step (R131). -/
def PidState.stepRaw (p : PidState) (meas : Int) : Int :=
  let raw := mulfx (sval p.zp) (p.error meas) + p.stepIntegral meas + p.stepDerivative meas
  match p.omode with
  | .accumulating => sval p.prevOut + raw
  | .nonAccumulating => raw

/-- `out`, the value a PID step returns (R131). -/
def PidState.stepOut (p : PidState) (meas : Int) : Int := p.limit (p.stepRaw meas)

/-- The PID elements after `pidStep(meas)` (R131). -/
def PidState.stepped (p : PidState) (meas : Int) : PidState :=
  { p with
    integral := pattern 64 (p.stepIntegral meas)
    prevMeas := pattern 64 meas
    prevOut := pattern 64 (p.stepOut meas)
    runCount := satinc 32 p.runCount }

/-- PID_RUN: one step; the output is emitted low word first (R131, R88). -/
def execPidRun (meas : Dword) (s : State) : Host.Outcome State Fault Refusal :=
  .next ({ s with pid := s.pid.stepped (sval meas) }.emit (wordsOf (pattern 64 (s.pid.stepOut (sval meas)))))

/-- PID_SET_LIMITS (R132). -/
def execPidSetLimits (min max : Dword) (s : State) : Host.Outcome State Fault Refusal :=
  if sval min ≥ sval max then .next s
  else .next { s with pid := { s.pid with outMin := min, outMax := max } }

/-- ZI after a retune from period `old` to `t` (R133). -/
def retuneIntegral (zi t old : Int) : Int := sat 64 (tdiv (zi * t) old)

/-- ZD after a retune from period `old` to `t` (R133). -/
def retuneDerivative (zd t old : Int) : Int := sat 64 (tdiv (zd * old) t)

/-- PID_SET_PERIOD (R133). PERIOD is at least 1 in every state a run reaches (R37 item 6); the fault stands for the
division by zero that R12 excludes (notes/assumptions/5.md). -/
def execPidSetPeriod (t : Word) (s : State) : Host.Outcome State Fault Refusal :=
  if sval t ≤ 0 then .next s
  else if sval s.pid.period = 0 then .fault .divisorZero
  else .next { s with pid := { s.pid with
    zi := pattern 64 (retuneIntegral (sval s.pid.zi) (sval t) (sval s.pid.period))
    zd := pattern 64 (retuneDerivative (sval s.pid.zd) (sval t) (sval s.pid.period))
    period := t } }

/-- PID_SET_SETPOINT (R134). -/
def execPidSetSetpoint (sp : Dword) (s : State) : Host.Outcome State Fault Refusal :=
  .next { s with pid := { s.pid with setpoint := sp } }

end Sys2Proof.Machine
end

