-- ==== Sys2Proof/Machine/RangeMapper.lean ====
section
/-! DEFINITION. The RangeMapper: `avg`, `mapRange` and the commands MAP, AVG, SIGN, NEGABS
(spec/40_range_mapper.md). -/

namespace Sys2Proof.Machine

/-- `avg(a, b)`, the floor of the exact mean (R102). -/
def avg (a b : Int) : Int := fdiv (a + b) 2

/-- The contract of `mapRange` (R100): none of the three violations holds. -/
def mapContract (inLow inHigh outLow outHigh deadband : Int) : Bool :=
  !(decide (deadband < 0) || decide (inHigh ≤ inLow + 2 * deadband) || decide (outLow > outHigh))

/-- The centered value shrunk toward zero by the deadband, or collapsed to zero inside it (R100, R105). -/
def deadbandAdjust (c deadband : Int) : Int :=
  if negabs c > -deadband then 0 else c - signOf c * deadband

/-- `scaled` of a centered value c: multiply first, one rounding toward zero (R100). -/
def mapScaled (inLow inHigh c outLow outHigh deadband : Int) : Int :=
  tdiv (deadbandAdjust c deadband * (outHigh - outLow)) (inHigh - inLow - 2 * deadband)

/-- The result of `mapRange` on operands that keep its contract (R100). -/
def mapValue (inLow inHigh inValue outLow outHigh deadband : Int) : Int :=
  clamp (avg outLow outHigh + mapScaled inLow inHigh (inValue - avg inLow inHigh) outLow outHigh deadband) outLow outHigh

/-- `mapRange` (R100): the result, or none where `ok` is false. -/
def mapRange (inLow inHigh inValue outLow outHigh deadband : Int) : Option Int :=
  if mapContract inLow inHigh outLow outHigh deadband then
    some (mapValue inLow inHigh inValue outLow outHigh deadband)
  else none

/-- MAP (R101). A contract violation sets ERR_MAP_DOMAIN and emits one unspecified word. -/
def execMap (inLow inHigh inValue outLow outHigh deadband : Word) (s : State) : Host.Outcome State Fault Refusal :=
  match mapRange (sval inLow) (sval inHigh) (sval inValue) (sval outLow) (sval outHigh) (sval deadband) with
  | some r => .next (s.emit [pattern 32 r])
  | none => .next (s.raise .mapDomain).emitFree

/-- AVG (R102). -/
def execAvg (a b : Word) (s : State) : Host.Outcome State Fault Refusal :=
  .next (s.emit [pattern 32 (avg (sval a) (sval b))])

/-- SIGN (R103). -/
def execSign (x : Word) (s : State) : Host.Outcome State Fault Refusal :=
  .next (s.emit [pattern 32 (signOf (sval x))])

/-- NEGABS (R104). -/
def execNegabs (x : Word) (s : State) : Host.Outcome State Fault Refusal :=
  .next (s.emit [pattern 32 (negabs (sval x))])

end Sys2Proof.Machine
end

