-- ==== Sys2Proof/Machine/ControlLoop.lean ====
section
/-! DEFINITION. The ControlLoop: LOOP_START and CTRL_TICK (spec/45_control_loop.md). -/

namespace Sys2Proof.Machine

/-- LOOP_START (R230). -/
def execLoopStart (s : State) : Host.Outcome State Fault Refusal :=
  if s.cal.calState = .warmup ∨ s.cal.calState = .accumulate then .next s
  else .next { s with seq := { s.seq with loopRun := true } }

/-- `map(v, oL, oH, db)` of a tick, whose contract has been tested (R231). -/
def LoopConfig.mapInput (c : LoopConfig) (v outLow outHigh deadband : Int) : Int :=
  mapValue (sval c.inLow) (sval c.inHigh) v outLow outHigh deadband

/-- A channel mapped to ±range with the channel deadband (R231, R233). -/
def LoopConfig.mapSymmetric (c : LoopConfig) (v : Word) (range : BitVec 31) : Int :=
  c.mapInput (sval v) (-uval range) (uval range) (uval c.chDeadband)

/-- The maps of a tick keep their contract (R231, R236). -/
def LoopConfig.contractHolds (c : LoopConfig) : Bool :=
  !decide (sval c.inHigh ≤ sval c.inLow + 2 * uval c.chDeadband)

/-- `shape(x)`: clamp to the drive range, then the output deadband (R232). -/
def LoopConfig.shape (c : LoopConfig) (x : Int) : Int :=
  let y := clamp x (-uval c.driveRange) (uval c.driveRange)
  if absOf y < uval c.outDeadband then 0 else y

/-- The aileron value of a Manual tick (R231). -/
def State.aileron (s : State) : Int := s.loop.mapSymmetric s.chan.ch[0] s.loop.driveRange

/-- The elevator value of a tick (R231). -/
def State.elevator (s : State) : Int := s.loop.mapSymmetric s.chan.ch[1] s.loop.driveRange

/-- The weapon value of a tick, with zero deadband (R231). -/
def State.weapon (s : State) : Int := s.loop.mapInput (sval s.chan.ch[2]) 0 (uval s.loop.weaponRange) 0

/-- The yaw-rate target `tgt` (R233). -/
def State.yawTarget (s : State) : Int := s.loop.mapSymmetric s.chan.ch[0] s.loop.yawFs

/-- The bias-corrected z-axis measurement of a tick (R233). -/
def State.yawMeasurement (s : State) (gz : Half) : Int := fx (sval gz - sval s.cal.bias[2])

/-- The PID elements with the set-point of a gyro-stabilized tick (R233). -/
def State.yawPid (s : State) : PidState := { s.pid with setpoint := pattern 64 (fx (-s.yawTarget)) }

/-- The correction a gyro-stabilized tick takes from the PID (R233). -/
def State.yawCorrection (s : State) (gz : Half) : Int := unfx (s.yawPid.stepOut (s.yawMeasurement gz))

/-- The end of a mixed tick: shaped drive outputs, and the weapon output unless FAULT_LATCH holds it idle (R231). -/
def State.mixOut (s : State) (left right : Int) : State :=
  s.drive (pattern 32 (s.loop.shape left)) (pattern 32 (s.loop.shape right))
    (if s.fs.faultLatch then 0 else pattern 32 s.weapon) (!s.fs.faultLatch)

/-- Manual mixing (R231, R234). -/
def State.mixManual (s : State) : State := s.mixOut (s.elevator - s.aileron) (s.elevator + s.aileron)

/-- Gyro-stabilized mixing, with the PID run of the tick (R231, R233, R234). -/
def State.mixGyro (s : State) (gz : Half) : State :=
  { s.mixOut (s.elevator + s.yawCorrection gz) (s.elevator - s.yawCorrection gz) with
    pid := s.yawPid.stepped (s.yawMeasurement gz) }

/-- The mixing of a valid tick in MODE, or the contract violation (R231, R236). -/
def State.mix (s : State) (gz : Half) : State :=
  if s.loop.contractHolds then
    match s.seq.mode with
    | .manual => s.mixManual
    | .gyroStabilized => s.mixGyro gz
  else s.contractViolation s.seq.mode

/-- A gyro error in GyroStabilized mode (R231). -/
def State.gyroError (s : State) (gerr : Bool) : Bool := decide (s.seq.mode = .gyroStabilized) && gerr

/-- LOOP_IND inverted (R235). -/
def State.toggleLoop (s : State) : State := { s with ind := { s.ind with loopInd := !s.ind.loopInd } }

/-- A valid tick of a running loop: the gyro fallback first, then the mixing (R231). After the fallback MODE is Manual,
which is the tick's own `mode`. -/
def State.validTick (s : State) (gz : Half) (gerr : Bool) : State :=
  if s.gyroError gerr then
    match s.inp.gyroErrPolicy with
    | .neutralThisTick => s.gyroFall.neutral
    | .manualThisTick => s.gyroFall.mix gz
  else s.mix gz

/-- CTRL_TICK (R231). gx and gy are never read. -/
def execCtrlTick (_gx _gy gz : Half) (gerr : Bool) (s : State) : Host.Outcome State Fault Refusal :=
  if s.seq.loopRun then
    if s.chan.valid then .next (s.toggleLoop.validTick gz gerr) else .next s.toggleLoop.neutral
  else .next s

end Sys2Proof.Machine
end

