-- ==== Sys2Proof/Machine/FailsafeSupervisor.lean ====
section
/-! DEFINITION. The FailsafeSupervisor: FS_TICK (spec/44_failsafe.md). -/

namespace Sys2Proof.Machine

/-- `elapsed`, the time since the last commit modulo 2^32 (R211). -/
def State.elapsed (s : State) (now : Word) : Word := now - s.chan.tCommit

/-- The staleness duty: past TIMEOUT, VALID is cleared and LOS_IND set (R211). -/
def State.checkStale (s : State) (now : Word) : State :=
  if uval (s.elapsed now) > uval s.inp.timeout then
    { s with chan := { s.chan with valid := false }, ind := { s.ind with losInd := true } }
  else s

/-- The motor-fault duty: FAULT_IN copies the line; under CutWeapon an asserted line latches and idles the weapon
(R211). -/
def State.pollFault (s : State) (fault : Bool) : State :=
  let s1 := { s with fs := { s.fs with faultIn := fault } }
  if fault = true ∧ s.inp.faultPolicy = .cutWeapon then
    { s1.weaponIdle with fs := { s1.fs with faultLatch := true } }
  else s1

/-- FS_TICK (R211). -/
def execFsTick (now : Word) (fault : Bool) (s : State) : Host.Outcome State Fault Refusal :=
  .next ((s.checkStale now).pollFault fault)

end Sys2Proof.Machine
end

