-- ==== Sys2Proof/Machine/GyroCalibrator.lean ====
section
/-! DEFINITION. The GyroBiasCalibrator: CAL_START and CAL_SAMPLE (spec/43_gyro_calibrator.md). -/

namespace Sys2Proof.Machine

/-- CAL_START is refused outside Idle, after a gyro fallback, while the loop runs, and for n = 0 (R190). -/
def calStartRefused (n : Word) (s : State) : Bool :=
  decide (s.cal.calState ≠ .idle) || s.seq.gyroFallback || s.seq.loopRun || decide (n = 0)

/-- CAL_START (R190). -/
def execCalStart (warmup n : Word) (s : State) : Host.Outcome State Fault Refusal :=
  if calStartRefused n s then .next s
  else .next { s with cal := { s.cal with
    calRem := warmup
    calN := n
    calCnt := 0
    calSum := #v[0, 0, 0]
    calState := if warmup = 0 then .accumulate else .warmup } }

/-- `calFail()` (R191). -/
def State.calFail (s : State) : State := { s.gyroFall with cal := { s.cal with calState := .failed } }

/-- One axis of `calDone`: the mean of the sum, rounded toward zero, as s16; none where it does not fit (R193). -/
def axisMean (sum : Dword) (n : Word) : Option Half := fitS 16 (tdiv (sval sum) (uval n))

/-- `calDone()` (R193); none where a mean does not fit s16. -/
def State.calDone (s : State) : Option State := do
  let bx ← axisMean s.cal.calSum[0] s.cal.calN
  let by' ← axisMean s.cal.calSum[1] s.cal.calN
  let bz ← axisMean s.cal.calSum[2] s.cal.calN
  some { s with
    cal := { s.cal with bias := #v[bx, by', bz], calState := .done }
    seq := { s.seq with mode := .gyroStabilized } }

/-- A good sample in Warmup is discarded and counted down (R191); none where CAL_REM is 0. -/
def State.calWarm (s : State) : Option State := do
  let rem ← fitU 32 (uval s.cal.calRem - 1)
  some { s with cal := { s.cal with
    calRem := rem
    calState := if rem = 0 then .accumulate else s.cal.calState } }

/-- A good sample in Accumulate is added to the sums and counted (R191, R192); none where a sum or the count does not
fit. -/
def State.calAdd (s : State) (x y z : Half) : Option State := do
  let sx ← fitS 64 (sval s.cal.calSum[0] + sval x)
  let sy ← fitS 64 (sval s.cal.calSum[1] + sval y)
  let sz ← fitS 64 (sval s.cal.calSum[2] + sval z)
  let cnt ← fitU 32 (uval s.cal.calCnt + 1)
  let s1 := { s with cal := { s.cal with calSum := #v[sx, sy, sz], calCnt := cnt } }
  if cnt = s.cal.calN then s1.calDone else some s1

/-- A checked update: the next state, or the fault for a value that does not fit (R11; notes/assumptions/5.md). -/
def checked (r : Option State) : Host.Outcome State Fault Refusal :=
  match r with
  | some s => .next s
  | none => .fault .valueOutOfRange

/-- CAL_SAMPLE (R191). -/
def execCalSample (x y z : Half) (err : Bool) (s : State) : Host.Outcome State Fault Refusal :=
  match s.cal.calState with
  | .warmup => if err then .next s.calFail else checked s.calWarm
  | .accumulate => if err then .next s.calFail else checked (s.calAdd x y z)
  | .idle | .done | .failed => .next s

end Sys2Proof.Machine
end

