-- ==== Sys2Proof/Machine/PulseDecoder.lean ====
section
/-! DEFINITION. The PulseDecoder: CAP_WIDTH, CAP_PERIOD and the commit (spec/42_pulse_decoder.md). -/

namespace Sys2Proof.Machine

/-- CAP_WIDTH (R160). -/
def execCapWidth (w : Word) (s : State) : Host.Outcome State Fault Refusal :=
  .next { s with dec := { s.dec with negWidth := w } }

/-- `plausible(w)`, for an integer width that may be negative; the bounds are inclusive (R162). -/
def plausible (cfg : InputConfig) (w : Int) : Bool :=
  decide (uval cfg.pulseMin ≤ w) && decide (w ≤ uval cfg.pulseMax)

/-- `conv(w)`, the value stored for a width (R162). -/
def conv (cfg : InputConfig) (w : Int) : Int := if cfg.recenter then w - uval cfg.neutral else w

/-- BUF with slot k replaced; none where there is no slot k. -/
def storeSlot (buf : Vector Word 5) (k : Nat) (v : Word) : Option (Vector Word 5) :=
  if h : k < 5 then some (buf.set k v h) else none

/-- The PulseAccumulator after a sync event (R161, R164 rows 1 and 2). -/
def PulseAccumulator.sync (d : PulseAccumulator) (cfg : InputConfig) (pos : Int) : PulseAccumulator :=
  if plausible cfg pos then
    { d with buf := d.buf.set 0 (pattern 32 (conv cfg pos)), index := 1, phase := .accumulating }
  else { d with index := 0, phase := .seeking }

/-- The PulseAccumulator after a normal event whose widths are both plausible, while Accumulating (R161, R164 rows 4
and 5, before the commit); none where INDEX leaves no room for two slots. -/
def PulseAccumulator.append (d : PulseAccumulator) (cfg : InputConfig) (pos : Int) : Option PulseAccumulator := do
  let k := d.index.toNat
  let b1 ← storeSlot d.buf k (pattern 32 (conv cfg (uval d.negWidth)))
  let b2 ← storeSlot b1 (k + 1) (pattern 32 (conv cfg pos))
  some { d with buf := b2, index := d.index + 2 }

/-- The PulseAccumulator after an aborted frame; BUF is kept (R161, R164 row 6). -/
def PulseAccumulator.abort (d : PulseAccumulator) : PulseAccumulator := { d with index := 0, phase := .seeking }

/-- The PulseAccumulator after a CAP_PERIOD of period p, before the commit (R161). -/
def PulseAccumulator.onPeriod (d : PulseAccumulator) (cfg : InputConfig) (p : Word) : Option PulseAccumulator :=
  let pos := uval p - uval d.negWidth
  if uval d.negWidth > uval cfg.syncGap then some (d.sync cfg pos)
  else
    match d.phase with
    | .seeking => some d
    | .accumulating =>
      if plausible cfg (uval d.negWidth) && plausible cfg pos then d.append cfg pos else some d.abort

/-- `commit(now)` (R163). -/
def State.commit (s : State) (now : Word) : State :=
  { s with
    chan := { ch := s.dec.buf, valid := true, tCommit := now, frameSeq := s.chan.frameSeq + 1 }
    ind := { s.ind with frameInd := !s.ind.frameInd, losInd := false }
    dec := { s.dec with index := 0, phase := .seeking } }

/-- CAP_PERIOD (R161). The fault stands for a slot past BUF[4], which R37 item 2 excludes
(notes/assumptions/5.md). -/
def execCapPeriod (p now : Word) (s : State) : Host.Outcome State Fault Refusal :=
  match s.dec.onPeriod s.inp p with
  | none => .fault .noSuchSlot
  | some d =>
    let s1 := { s with dec := d }
    if d.phase = .accumulating ∧ d.index = 5 then .next (s1.commit now) else .next s1

end Sys2Proof.Machine
end

