-- ==== Sys2Proof/Machine/RegisterAccess.lean ====
section
/-! DEFINITION. The register space (spec/10_state.md R31) and the commands NOP, REG_READ, REG_WRITE
(spec/46_register_access.md). -/

namespace Sys2Proof.Machine

/-- The nine 64-bit PID values of the register map (R31, R263). -/
inductive PidValue where
  | zp
  | zi
  | zd
  | outMin
  | outMax
  | setpoint
  | integral
  | prevMeas
  | prevOut
  deriving DecidableEq, Repr

/-- The registers of R31. -/
inductive Reg where
  | status
  | decState
  | negWidth
  | frameSeq
  | ch (i : Fin 5)
  | tCommit
  | config
  | syncGap
  | pulseMin
  | pulseMax
  | neutral
  | timeout
  | inLow
  | inHigh
  | chDeadband
  | driveRange
  | outDeadband
  | weaponRange
  | yawFs
  | bias (i : Fin 3)
  | driveLeft
  | driveRight
  | weaponWidth
  | weaponEn
  | pidLo (v : PidValue)
  | pidHi (v : PidValue)
  | pidPeriod
  | pidFlags
  | runCount
  deriving DecidableEq, Repr

/-- RO or RW (R31). -/
inductive Access where
  | ro
  | rw
  deriving DecidableEq, Repr

/-- One row of the address map. -/
structure RegRow where
  addr   : RegAddr
  reg    : Reg
  access : Access
  deriving DecidableEq, Repr

/-- Addresses 0x00 to 0x24 of R31: the decoder and the channels. -/
def regMapDecoder : List RegRow :=
  [⟨0x00, .status, .ro⟩, ⟨0x04, .decState, .ro⟩, ⟨0x08, .negWidth, .ro⟩, ⟨0x0C, .frameSeq, .ro⟩,
   ⟨0x10, .ch 0, .ro⟩, ⟨0x14, .ch 1, .ro⟩, ⟨0x18, .ch 2, .ro⟩, ⟨0x1C, .ch 3, .ro⟩, ⟨0x20, .ch 4, .ro⟩,
   ⟨0x24, .tCommit, .ro⟩]

/-- Addresses 0x28 to 0x58 of R31: the configuration. -/
def regMapConfig : List RegRow :=
  [⟨0x28, .config, .rw⟩, ⟨0x2C, .syncGap, .rw⟩, ⟨0x30, .pulseMin, .rw⟩, ⟨0x34, .pulseMax, .rw⟩,
   ⟨0x38, .neutral, .rw⟩, ⟨0x3C, .timeout, .rw⟩, ⟨0x40, .inLow, .rw⟩, ⟨0x44, .inHigh, .rw⟩,
   ⟨0x48, .chDeadband, .rw⟩, ⟨0x4C, .driveRange, .rw⟩, ⟨0x50, .outDeadband, .rw⟩, ⟨0x54, .weaponRange, .rw⟩,
   ⟨0x58, .yawFs, .rw⟩]

/-- Addresses 0x60 to 0x78 of R31: the bias and the outputs. -/
def regMapOutput : List RegRow :=
  [⟨0x60, .bias 0, .ro⟩, ⟨0x64, .bias 1, .ro⟩, ⟨0x68, .bias 2, .ro⟩, ⟨0x6C, .driveLeft, .ro⟩,
   ⟨0x70, .driveRight, .ro⟩, ⟨0x74, .weaponWidth, .ro⟩, ⟨0x78, .weaponEn, .ro⟩]

/-- Addresses 0x80 to 0xD0 of R31: the PID. -/
def regMapPid : List RegRow :=
  [⟨0x80, .pidLo .zp, .ro⟩, ⟨0x84, .pidHi .zp, .ro⟩, ⟨0x88, .pidLo .zi, .ro⟩, ⟨0x8C, .pidHi .zi, .ro⟩,
   ⟨0x90, .pidLo .zd, .ro⟩, ⟨0x94, .pidHi .zd, .ro⟩, ⟨0x98, .pidLo .outMin, .ro⟩, ⟨0x9C, .pidHi .outMin, .ro⟩,
   ⟨0xA0, .pidLo .outMax, .ro⟩, ⟨0xA4, .pidHi .outMax, .ro⟩, ⟨0xA8, .pidLo .setpoint, .ro⟩,
   ⟨0xAC, .pidHi .setpoint, .ro⟩, ⟨0xB0, .pidLo .integral, .ro⟩, ⟨0xB4, .pidHi .integral, .ro⟩,
   ⟨0xB8, .pidLo .prevMeas, .ro⟩, ⟨0xBC, .pidHi .prevMeas, .ro⟩, ⟨0xC0, .pidLo .prevOut, .ro⟩,
   ⟨0xC4, .pidHi .prevOut, .ro⟩, ⟨0xC8, .pidPeriod, .ro⟩, ⟨0xCC, .pidFlags, .ro⟩, ⟨0xD0, .runCount, .ro⟩]

/-- The address map (R31, R66). Every address not listed, a misaligned one among them, is no register (R63, R64). -/
def regMap : List RegRow := regMapDecoder ++ regMapConfig ++ regMapOutput ++ regMapPid

/-- The row of a mapped, aligned address. -/
def regAt (a : RegAddr) : Option RegRow := regMap.find? (fun r => r.addr == a)

/-- The 64-bit PID value a register half belongs to (R263). -/
def PidState.value (p : PidState) : PidValue → Dword
  | .zp => p.zp
  | .zi => p.zi
  | .zd => p.zd
  | .outMin => p.outMin
  | .outMax => p.outMax
  | .setpoint => p.setpoint
  | .integral => p.integral
  | .prevMeas => p.prevMeas
  | .prevOut => p.prevOut

/-- `readValue` (R263). -/
def State.readReg (s : State) : Reg → Word
  | .status => s.statusWord
  | .decState => s.decStateWord
  | .negWidth => s.dec.negWidth
  | .frameSeq => s.chan.frameSeq
  | .ch i => s.chan.ch[i]
  | .tCommit => s.chan.tCommit
  | .config => s.configWord
  | .syncGap => s.inp.syncGap
  | .pulseMin => s.inp.pulseMin.setWidth 32
  | .pulseMax => s.inp.pulseMax.setWidth 32
  | .neutral => s.inp.neutral.setWidth 32
  | .timeout => s.inp.timeout
  | .inLow => s.loop.inLow
  | .inHigh => s.loop.inHigh
  | .chDeadband => s.loop.chDeadband.setWidth 32
  | .driveRange => s.loop.driveRange.setWidth 32
  | .outDeadband => s.loop.outDeadband.setWidth 32
  | .weaponRange => s.loop.weaponRange.setWidth 32
  | .yawFs => s.loop.yawFs.setWidth 32
  | .bias i => s.cal.bias[i].signExtend 32
  | .driveLeft => s.seq.driveLeft
  | .driveRight => s.seq.driveRight
  | .weaponWidth => s.seq.weaponWidth
  | .weaponEn => bitWord 32 s.seq.weaponEn
  | .pidLo v => loWord (s.pid.value v)
  | .pidHi v => hiWord (s.pid.value v)
  | .pidPeriod => s.pid.period
  | .pidFlags => s.pidFlagsWord
  | .runCount => s.pid.runCount

/-- `writeValue` (R264): the field masks of R34 and R36. A register that is not writable stays as it is. -/
def State.writeReg (s : State) (r : Reg) (v : Word) : State :=
  match r with
  | .config => { s with inp := { s.inp with
      recenter := v.getLsbD 0
      faultPolicy := faultPolicyOf (v.getLsbD 1)
      gyroErrPolicy := gyroErrPolicyOf (v.getLsbD 2) } }
  | .syncGap => { s with inp := { s.inp with syncGap := v } }
  | .pulseMin => { s with inp := { s.inp with pulseMin := v.setWidth 16 } }
  | .pulseMax => { s with inp := { s.inp with pulseMax := v.setWidth 16 } }
  | .neutral => { s with inp := { s.inp with neutral := v.setWidth 16 } }
  | .timeout => { s with inp := { s.inp with timeout := v } }
  | .inLow => { s with loop := { s.loop with inLow := v } }
  | .inHigh => { s with loop := { s.loop with inHigh := v } }
  | .chDeadband => { s with loop := { s.loop with chDeadband := v.setWidth 31 } }
  | .driveRange => { s with loop := { s.loop with driveRange := v.setWidth 31 } }
  | .outDeadband => { s with loop := { s.loop with outDeadband := v.setWidth 31 } }
  | .weaponRange => { s with loop := { s.loop with weaponRange := v.setWidth 31 } }
  | .yawFs => { s with loop := { s.loop with yawFs := v.setWidth 31 } }
  | .status | .decState | .negWidth | .frameSeq | .ch _ | .tCommit | .bias _ | .driveLeft | .driveRight
  | .weaponWidth | .weaponEn | .pidLo _ | .pidHi _ | .pidPeriod | .pidFlags | .runCount => s

/-- NOP (R260). -/
def execNop (s : State) : Host.Outcome State Fault Refusal := .next s

/-- REG_READ (R261): a bad address emits 0 and sets ERR_BAD_REG (R64). -/
def execRegRead (a : RegAddr) (s : State) : Host.Outcome State Fault Refusal :=
  match regAt a with
  | none => .next ((s.emit [0]).raise .badReg)
  | some row => .next (s.emit [s.readReg row.reg])

/-- REG_WRITE (R262): a bad address or a read-only register sets ERR_BAD_REG and changes nothing else (R64). -/
def execRegWrite (a : RegAddr) (value : Word) (s : State) : Host.Outcome State Fault Refusal :=
  match regAt a with
  | none => .next (s.raise .badReg)
  | some row =>
    match row.access with
    | .ro => .next (s.raise .badReg)
    | .rw => .next (s.writeReg row.reg value)

end Sys2Proof.Machine
end

