-- ==== Sys2Proof/Machine/Dispatch.lean ====
section
/-! DEFINITION. One arm per command. -/

namespace Sys2Proof.Machine

def exec (i : Instr) (s : State) : Host.Outcome State Fault Refusal :=
  match i with
  | .nop => Sys2Proof.Machine.execNop s
  | .capWidth w => Sys2Proof.Machine.execCapWidth w s
  | .capPeriod p now => Sys2Proof.Machine.execCapPeriod p now s
  | .fsTick now fault => Sys2Proof.Machine.execFsTick now fault s
  | .map inLow inHigh inValue outLow outHigh deadband => Sys2Proof.Machine.execMap inLow inHigh inValue outLow outHigh deadband s
  | .avg a b => Sys2Proof.Machine.execAvg a b s
  | .sign x => Sys2Proof.Machine.execSign x s
  | .negabs x => Sys2Proof.Machine.execNegabs x s
  | .pidConfigure kp ki kd dir omode t outMin outMax setPoint => Sys2Proof.Machine.execPidConfigure kp ki kd dir omode t outMin outMax setPoint s
  | .pidRun meas => Sys2Proof.Machine.execPidRun meas s
  | .pidSetLimits min max => Sys2Proof.Machine.execPidSetLimits min max s
  | .pidSetPeriod t => Sys2Proof.Machine.execPidSetPeriod t s
  | .pidSetSetpoint sp => Sys2Proof.Machine.execPidSetSetpoint sp s
  | .calStart warmup n => Sys2Proof.Machine.execCalStart warmup n s
  | .calSample x y z err => Sys2Proof.Machine.execCalSample x y z err s
  | .loopStart => Sys2Proof.Machine.execLoopStart s
  | .ctrlTick gx gy gz gerr => Sys2Proof.Machine.execCtrlTick gx gy gz gerr s
  | .regRead addr => Sys2Proof.Machine.execRegRead addr s
  | .regWrite addr value => Sys2Proof.Machine.execRegWrite addr value s

end Sys2Proof.Machine
end

