-- ==== Sys2Proof/Machine/Port.lean ====
section
/-! DEFINITION. The command port and the block's surroundings: which agent's command is accepted (spec/00_scope.md R6,
spec/20_memory.md R72, spec/60_exceptions.md R285), the reset input (spec/70_reset_and_hazards.md R310, R324), and the
host taking response words. -/

namespace Sys2Proof.Machine

/-- The order in which the port accepts commands that arrive together: CAP, CTL, FS, GYR, HOST (R285). -/
def agentPriority : List Agent := [.cap, .ctl, .fs, .gyr, .host]

/-- The agent the port accepts first of those whose commands arrived together, and the others (R285). -/
def arbitrate (who : List Agent) : Option (Agent × List Agent) :=
  match agentPriority.find? (fun a => who.contains a) with
  | some a => some (a, who.erase a)
  | none => none

/-- The agent that issues a command by the convention of R6. The block does not check it (R289): no meaning reads
it. -/
def issuingAgent : Opcode → Agent
  | .capWidth | .capPeriod => .cap
  | .ctrlTick => .ctl
  | .fsTick => .fs
  | .calSample => .gyr
  | .nop | .map | .avg | .sign | .negabs | .pidConfigure | .pidRun | .pidSetLimits | .pidSetPeriod | .pidSetSetpoint
  | .calStart | .loopStart | .regRead | .regWrite => .host

/-- The frames an agent has yet to send. -/
def Streams.get (t : Streams) : Agent → List Frame
  | .cap => t.cap
  | .ctl => t.ctl
  | .fs => t.fs
  | .gyr => t.gyr
  | .host => t.host

/-- The streams with one agent's replaced. -/
def Streams.put (t : Streams) (a : Agent) (l : List Frame) : Streams :=
  match a with
  | .cap => { t with cap := l }
  | .ctl => { t with ctl := l }
  | .fs => { t with fs := l }
  | .gyr => { t with gyr := l }
  | .host => { t with host := l }

/-- The state with one agent's stream replaced. -/
def State.setStream (s : State) (a : Agent) (l : List Frame) : State :=
  { s with env := { s.env with streams := s.env.streams.put a l } }

/-- The state with the events to come replaced. -/
def State.setSchedule (s : State) (l : List Event) : State := { s with env := { s.env with schedule := l } }

/-- The arrivals still waiting after the port has accepted one of a group. -/
def waiting (others : List Agent) (rest : List Event) : List Event :=
  match others with
  | [] => rest
  | _ :: _ => .arrive others :: rest

/-- The ticks due at unit k of the environment's time, k counted from 1, where `pCtrl` is P_CTRL_PERIOD and `pFs` is
P_FS_PERIOD in that unit (R10). A period of 0 gives no ticks. -/
def ticksAt (pCtrl pFs k : Nat) : List Event :=
  match (if k % pCtrl = 0 then [Agent.ctl] else []) ++ (if k % pFs = 0 then [Agent.fs] else []) with
  | [] => []
  | who => [.arrive who]

/-- The arrivals of the two tick strobes over n units of the environment's time: P_CTRL_PERIOD and P_FS_PERIOD as
arguments of the schedule (R10). DESIGN CHOICE, notes/assumptions/13.md: the spec leaves both open (D63, D64), and the
machine takes any schedule, this one or another. -/
def tickSchedule (pCtrl pFs n : Nat) : List Event := (List.range n).flatMap (fun k => ticksAt pCtrl pFs (k + 1))

/-- The level of `rst` driven. An asserted `rst` returns every element of the block to its reset value at once and
empties the response port (R310, R311, R324). The environment is not the block's, and the index of the free values
goes on (notes/assumptions/2.md). -/
def State.driveRst (s : State) (level : Bool) : State :=
  if level then { State.reset with env := { s.env with rst := true }, free := s.free }
  else { s with env := { s.env with rst := false } }

/-- The host takes the oldest response word, if there is one (notes/assumptions/7.md). -/
def State.takeResponse (s : State) : State := { s with resp := s.resp.tail }

/-- The state in which an agent is about to send one more frame, arriving alone before everything else. -/
def State.offer (s : State) (a : Agent) (f : Frame) : State :=
  (s.setStream a (f :: s.env.streams.get a)).setSchedule (.arrive [a] :: s.env.schedule)

end Sys2Proof.Machine
end

