-- ==== Sys2Proof/Machine/Run.lean ====
section
/-! DEFINITION. Executing one frame, one agent's step, and one event of the environment. -/

namespace Sys2Proof.Machine

/-- One frame executed whole (R71): a legal one by its command, an illegal one discarded with ERR_ILLEGAL_OP and no
other change (R86, R282). -/
def runFrame (f : Frame) (s : State) : Host.Outcome State Fault Refusal :=
  match decode f with
  | .ok i => exec i s
  | .error _ => .next (s.raise .illegalOp)

/-- One agent's step (R6): its next frame is accepted and executed. An agent with nothing to send changes nothing. -/
def agentStep (a : Agent) (s : State) : Host.Outcome State Fault Refusal :=
  match s.env.streams.get a with
  | [] => .next s
  | f :: rest => runFrame f (s.setStream a rest)

/-- Arrivals at the port: the first of them by priority is accepted (R285); while `rst` is asserted none is (R310), and
a frame not accepted stays the first of its agent's stream (notes/assumptions/8.md). -/
def arriveStep (who : List Agent) (rest : List Event) (s : State) : Host.Outcome State Fault Refusal :=
  if s.env.rst then .next (s.setSchedule rest)
  else
    match arbitrate who with
    | none => .next (s.setSchedule rest)
    | some (a, others) => agentStep a (s.setSchedule (waiting others rest))

/-- The next event of the environment. With none to come the block is idle and holds its state (R295). -/
def eventStep (s : State) : Host.Outcome State Fault Refusal :=
  match s.env.schedule with
  | [] => .next s
  | .arrive who :: rest => arriveStep who rest s
  | .rst level :: rest => .next ((s.setSchedule rest).driveRst level)
  | .take :: rest => .next (s.setSchedule rest).takeResponse

/-- A list of commands executed one after the other with nothing between them (R72, R75), stopping at the first fault
or refusal. The laws of the spec that speak of several commands are stated with it. -/
def execAll : List Instr → State → Host.Outcome State Fault Refusal
  | [], s => .next s
  | i :: rest, s =>
    match exec i s with
    | .next s' => execAll rest s'
    | .fault r => .fault r
    | .refused r => .refused r

/-- The commands of the pseudo-command PPM_FRAME gap, s0, s1, s2, s3, s4 @ t (R90), sums modulo 2^32. -/
def ppmFrame (gap s0 s1 s2 s3 s4 t : Word) : List Instr :=
  [.capWidth gap, .capPeriod (gap + s0) t, .capWidth s1, .capPeriod (s1 + s2) t, .capWidth s3, .capPeriod (s3 + s4) t]

/-- The command of the pseudo-command CTRL_TICK_MANUAL (R90). -/
def ctrlTickManual : List Instr := [.ctrlTick 0 0 0 false]

/-- The command of the pseudo-command PID_SET_LIMITS_INT lo, hi (R90), where the limits fit Q47.16. -/
def pidSetLimitsInt (lo hi : Int) : Option (List Instr) := do
  let l ← fitS 64 (fx lo)
  let h ← fitS 64 (fx hi)
  some [.pidSetLimits l h]

/-- The reads of one pass of the pseudo-command READ_FRAME (R90, R74): FRAME_SEQ, CH0 to CH4, STATUS, FRAME_SEQ. -/
def readFramePass : List Instr :=
  [.regRead 0x0C, .regRead 0x10, .regRead 0x14, .regRead 0x18, .regRead 0x1C, .regRead 0x20, .regRead 0x00,
   .regRead 0x0C]

end Sys2Proof.Machine
end

