-- ==== Sys2Proof/Machine/Step.lean ====
section
/-! DEFINITION. One step of the machine. -/

namespace Sys2Proof.Machine

/-- One step: the next event of the environment (notes/assumptions/1.md). -/
def step (s : State) : Host.Outcome State Fault Refusal := eventStep s

/-- The state with the opcode table's word as the next frame the HOST sends, arriving alone at a released block, so
that the very next step executes it (notes/assumptions/1.md). -/
def State.withFetchWord (s : State) (nbits w : Nat) : State :=
  { s with env := { s.env with rst := false } }.offer .host (frameOfTableWord nbits w)

end Sys2Proof.Machine
end

