-- ==== Sys2Proof/Safety.lean ====
section
/-! DEFINITION. What counts as a safe state: no error bit set (spec/60_exceptions.md R281), and the invariants of
spec/10_state.md R37 with the facts of spec/43_gyro_calibrator.md R192, R193, R196 and spec/44_failsafe.md R215 that
make them inductive. -/

namespace Sys2Proof.Machine

/-- The spec's faulted state: any error bit set (R281). -/
def State.faulted (s : State) : Bool := s.err.illegalOp || s.err.badReg || s.err.mapDomain

/-- R37 items 1 and 2. -/
abbrev PulseAccumulator.Inv (d : PulseAccumulator) : Prop :=
  (d.phase = .seeking → d.index = 0) ∧ (d.phase = .accumulating → d.index = 1 ∨ d.index = 3)

/-- R37 items 3, 4 and 9, and R196: a gyro fallback comes after a calibration has ended, and a failed calibration has
caused one. -/
abbrev State.InvMode (s : State) : Prop :=
  (s.seq.mode = .gyroStabilized → s.cal.calState = .done ∧ s.seq.gyroFallback = false) ∧
  (s.seq.gyroFallback = true → s.cal.calState = .done ∨ s.cal.calState = .failed) ∧
  (s.cal.calState = .failed → s.seq.gyroFallback = true) ∧
  (s.seq.loopRun = true → s.cal.calState ≠ .warmup ∧ s.cal.calState ≠ .accumulate)

/-- R37 items 6 and 7. -/
abbrev PidState.Inv (p : PidState) : Prop :=
  1 ≤ p.period.toInt ∧ ((p.outMin = 0 ∧ p.outMax = 0) ∨ p.outMin.toInt < p.outMax.toInt)

/-- The sum of `cnt` s16 samples (R192, R193): it lies between cnt × (−2^15) and cnt × (2^15 − 1). -/
abbrev sumOfSamples (sum : Dword) (cnt : Word) : Prop :=
  -(32768 * (cnt.toNat : Int)) ≤ sum.toInt ∧ sum.toInt ≤ 32767 * (cnt.toNat : Int)

/-- R37 items 10 and 11. In Warmup nothing has been counted yet (R190). -/
abbrev CalibratorState.Inv (c : CalibratorState) : Prop :=
  (c.calState = .warmup → 1 ≤ c.calRem.toNat ∧ c.calCnt.toNat < c.calN.toNat) ∧
  (c.calState = .accumulate → c.calCnt.toNat < c.calN.toNat) ∧
  sumOfSamples c.calSum[0] c.calCnt ∧ sumOfSamples c.calSum[1] c.calCnt ∧ sumOfSamples c.calSum[2] c.calCnt

/-- R215: a latched fault holds the weapon idle, unless a contract violation has left the outputs unspecified. -/
abbrev State.InvWeapon (s : State) : Prop :=
  s.err.mapDomain = false → s.fs.faultLatch = true → s.seq.weaponEn = false ∧ s.seq.weaponWidth = 0

/-- The invariant of every command boundary (R37, items 1 to 4, 6, 7, 9 to 11). -/
abbrev State.Inv (s : State) : Prop :=
  s.dec.Inv ∧ s.InvMode ∧ s.pid.Inv ∧ s.cal.Inv ∧ s.InvWeapon

end Sys2Proof.Machine
end

