-- ==== Sys2Proof/Certificates/Slice0/Obligations.lean ====
section
/-! DEFINITION. The statements for the provers. The reference formulas they use stand first, under Sys2Proof.Rule,
written from the rules apart from the machine's own operations. -/

namespace Sys2Proof.Rule

open Sys2Proof.Machine

/-- The formula of R100 for operands that keep the contract, with floor mean, truncated quotient and clamp written
out. -/
def mapped (inLow inHigh inValue outLow outHigh deadband : Int) : Int :=
  let c := inValue - (inLow + inHigh) / 2
  let adj := if |c| < deadband then 0 else if c < 0 then c + deadband else c - deadband
  max outLow (min outHigh ((outLow + outHigh) / 2 + (adj * (outHigh - outLow)).tdiv (inHigh - inLow - 2 * deadband)))

/-- The contract of R100. -/
def keepsContract (inLow inHigh outLow outHigh deadband : Int) : Prop :=
  0 ≤ deadband ∧ inLow + 2 * deadband < inHigh ∧ outLow ≤ outHigh

/-- The formula of R232. -/
def shaped (range deadband x : Int) : Int :=
  let y := max (-range) (min range x)
  if |y| < deadband then 0 else y

/-- `mulfx` of R13. -/
def product (a b : Int) : Int := (a * b).tdiv 65536

/-- The clamp of R131 for limits in order. -/
def bounded (p : PidState) (x : Int) : Int := max p.outMin.toInt (min p.outMax.toInt x)

/-- The integral, the raw sum and the output of R131. -/
def nextIntegral (p : PidState) (meas : Int) : Int :=
  bounded p (p.integral.toInt + product p.zi.toInt (p.setpoint.toInt - meas))

/-- `raw` of R131, before the final clamp. -/
def rawOutput (p : PidState) (meas : Int) : Int :=
  (if p.omode = .accumulating then p.prevOut.toInt else 0) + product p.zp.toInt (p.setpoint.toInt - meas) +
    nextIntegral p meas - (if p.runCount = 0 then 0 else product p.zd.toInt (meas - p.prevMeas.toInt))

/-- `out` of R131. -/
def output (p : PidState) (meas : Int) : Int := bounded p (rawOutput p meas)

/-- q holds the PID elements after one step of R131 from p with measurement meas: the four that change, and every
other as it was. -/
def pidStepped (p q : PidState) (meas : Int) : Prop :=
  q.integral.toInt = nextIntegral p meas ∧ q.prevMeas.toInt = meas ∧ q.prevOut.toInt = output p meas ∧
  q.runCount.toNat = min (2 ^ 32 - 1) (p.runCount.toNat + 1) ∧
  q = { p with integral := q.integral, prevMeas := q.prevMeas, prevOut := q.prevOut, runCount := q.runCount }

/-- `plausible` of R162. -/
def isPlausible (c : InputConfig) (w : Int) : Prop := (c.pulseMin.toNat : Int) ≤ w ∧ w ≤ (c.pulseMax.toNat : Int)

/-- `conv` of R162. -/
def stored (c : InputConfig) (w : Int) : Word := BitVec.ofInt 32 (if c.recenter then w - c.neutral.toNat else w)

/-- A channel of a tick mapped to ±range (R231, R233). -/
def channel (s : State) (v : Word) (range : BitVec 31) : Int :=
  mapped s.loop.inLow.toInt s.loop.inHigh.toInt v.toInt (-range.toNat) range.toNat s.loop.chDeadband.toNat

/-- The weapon value of a tick (R231). -/
def weapon (s : State) : Int :=
  mapped s.loop.inLow.toInt s.loop.inHigh.toInt s.chan.ch[2].toInt 0 s.loop.weaponRange.toNat 0

/-- A drive output of a tick (R232). -/
def driveValue (s : State) (x : Int) : Int := shaped s.loop.driveRange.toNat s.loop.outDeadband.toNat x

/-- The maps of a tick keep their contract (R236). -/
def tickInContract (s : State) : Prop :=
  s.loop.inLow.toInt + 2 * s.loop.chDeadband.toNat < s.loop.inHigh.toInt

/-- i is, in s, a CTRL_TICK that is a contract violation (R231, R236): the loop runs, the channels are valid, the maps
break their contract, and the tick is no NeutralThisTick fallback. -/
def violates (i : Instr) (s : State) : Prop :=
  ∃ gx gy gz gerr, i = .ctrlTick gx gy gz gerr ∧ s.seq.loopRun = true ∧ s.chan.valid = true ∧ ¬ tickInContract s ∧
    ¬ (s.seq.mode = .gyroStabilized ∧ gerr = true ∧ s.inp.gyroErrPolicy = .neutralThisTick)

/-- The session has fallen back for good (R196, R238): MODE is Manual, GYRO_FALLBACK is set, the calibrator has ended. -/
def fallenBack (s : State) : Prop :=
  s.seq.mode = .manual ∧ s.seq.gyroFallback = true ∧ (s.cal.calState = .done ∨ s.cal.calState = .failed)

/-- t is s after a mixed tick with drive sums left and right and PID elements p (R231): LOOP_IND inverted, the four
outputs, the PID; nothing else. -/
def mixedTick (s t : State) (left right : Int) (p : PidState) : Prop :=
  t.seq.driveLeft.toInt = driveValue s left ∧ t.seq.driveRight.toInt = driveValue s right ∧
  (t.seq.weaponWidth.toNat : Int) = (if s.fs.faultLatch then 0 else weapon s) ∧
  t.seq.weaponEn = !s.fs.faultLatch ∧
  t = { s with
    ind := { s.ind with loopInd := !s.ind.loopInd }
    seq := { s.seq with driveLeft := t.seq.driveLeft, driveRight := t.seq.driveRight,
                        weaponWidth := t.seq.weaponWidth, weaponEn := t.seq.weaponEn }
    pid := p }

/-- The mask of a writable register (R34, R36, R264): the bits a REG_WRITE stores. -/
def writeMask (a : RegAddr) : Word :=
  if a = 0x28 then 0x7
  else if a = 0x30 ∨ a = 0x34 ∨ a = 0x38 then 0xFFFF
  else if a = 0x48 ∨ a = 0x4C ∨ a = 0x50 ∨ a = 0x54 ∨ a = 0x58 then 0x7FFFFFFF
  else 0xFFFFFFFF

/-- The addresses of R31 that are no register: misaligned, 0x5C, 0x7C, and 0xD4 to 0xFC. -/
def isUnmapped (a : RegAddr) : Prop := a.toNat % 4 ≠ 0 ∨ a = 0x5C ∨ a = 0x7C ∨ 0xD4 ≤ a.toNat

/-- The read-write registers of R31: 0x28 to 0x58. -/
def isWritable (a : RegAddr) : Prop := a.toNat % 4 = 0 ∧ 0x28 ≤ a.toNat ∧ a.toNat ≤ 0x58

/-- The reset column of R31 (spec/95_test_vectors.md V-RST-1), for the registers that do not reset to 0. -/
def resetValue (a : RegAddr) : Word :=
  if a = 0x2C then 5000 else if a = 0x30 then 800 else if a = 0x34 then 2200 else if a = 0x38 then 1500
  else if a = 0x3C then 500000 else if a = 0x40 then 1000 else if a = 0x44 then 2000 else if a = 0xC8 then 5 else 0

/-- One calibration reading without a sensor error. -/
def reading (r : Half × Half × Half) : Instr := .calSample r.1 r.2.1 r.2.2 false

end Sys2Proof.Rule

open Sys2Proof Sys2Proof.Machine

/-! Encoding. -/

/-- The three example frames of R89, frames of V-CAL-6, V-PID-12, V-FS-7 and V-MAP-1, the frame of LOOP_START (R84), and
the reserved opcode of V-ILL-1, decode as the spec says. -/
def Obligations.SpecWordsDecodeAsWritten : Prop :=
  decode ⟨0x00000011, [0x00001D4C, 0x00000064]⟩ = .ok (.capPeriod 7500 100) ∧
  decode ⟨0x00004C71, [0x000003E8]⟩ = .ok (.regWrite 0x4C 1000) ∧
  decode ⟨0x00001870, []⟩ = .ok (.regRead 0x18) ∧
  decode ⟨0x00000051, [0xABCD0005, 0xFFFFFFFE, 0x0001FFFF, 0xFFFFFFFE]⟩ = .ok (.calSample 5 (-2) (-1) false) ∧
  decode ⟨0x00000042, [0xFFF60000, 0xFFFFFFFF, 0x000A0000, 0x00000000]⟩ = .ok (.pidSetLimits (-655360) 655360) ∧
  decode ⟨0x00000020, [0x00000005, 0xFFFFFFFE]⟩ = .ok (.fsTick 5 false) ∧
  decode ⟨0x00000060, []⟩ = .ok .loopStart ∧
  decode ⟨0x00000030, [1000, 2000, 1600, 0xFFFF8000, 0x7FFF, 20]⟩ = .ok (.map 1000 2000 1600 (-32768) 32767 20) ∧
  decode ⟨0x00000099, []⟩ = .error .reservedOpcode

/-- Decoding an encoded command gives the command back, for every command and every operand. -/
def Obligations.DecodeOfEncodeIsTheCommand : Prop := ∀ i : Instr, decode (encode i) = .ok i

/-- R86: a legal frame executes its command; an illegal one is discarded whole with ERR_ILLEGAL_OP, leaving a faulted
state. -/
def Obligations.IllegalFramesAreDiscardedWithErrorBit : Prop :=
  ∀ (f : Frame) (s : State),
    (f.legal = true → ∃ i, decode f = .ok i ∧ runFrame f s = exec i s) ∧
    (f.legal = false → ∃ t, runFrame f s = .next t ∧ t = { s with err := { s.err with illegalOp := true } } ∧
      t.faulted = true)

/-- A decoded command has the word 0 and the length of its frame: no bit of word 0 and no operand word is dropped. -/
def Obligations.DecodedCommandKeepsWordZeroAndLength : Prop :=
  ∀ (f : Frame) (i : Instr), decode f = .ok i →
    (encode i).word0 = f.word0 ∧ (encode i).operands.length = f.operands.length ∧
    (f.op, f.operands.length) ∈ Frame.operandTable

/-- R82: u32, s32, s16, b1, s64 and pidflags operands are assembled from their words as the table says; the ignored
bits have no effect. -/
def Obligations.OperandsAssembleByTheirTypes : Prop :=
  ∀ a b c d e f g h i j k l m n : Word,
    decode ⟨0x10, [a]⟩ = .ok (.capWidth a) ∧
    decode ⟨0x31, [a, b]⟩ = .ok (.avg a b) ∧
    decode ⟨0x20, [a, b]⟩ = .ok (.fsTick a (b.toNat % 2 == 1)) ∧
    decode ⟨0x51, [a, b, c, d]⟩ =
      .ok (.calSample (BitVec.ofNat 16 (a.toNat % 2 ^ 16)) (BitVec.ofNat 16 (b.toNat % 2 ^ 16))
        (BitVec.ofNat 16 (c.toNat % 2 ^ 16)) (d.toNat % 2 == 1)) ∧
    decode ⟨0x61, [a, b, c, d]⟩ =
      .ok (.ctrlTick (BitVec.ofNat 16 (a.toNat % 2 ^ 16)) (BitVec.ofNat 16 (b.toNat % 2 ^ 16))
        (BitVec.ofNat 16 (c.toNat % 2 ^ 16)) (d.toNat % 2 == 1)) ∧
    decode ⟨0x41, [a, b]⟩ = .ok (.pidRun (BitVec.ofNat 64 (a.toNat + 2 ^ 32 * b.toNat))) ∧
    decode ⟨0x40, [a, b, c, d, e, f, g, h, i, j, k, l, m, n]⟩ =
      .ok (.pidConfigure (BitVec.ofNat 64 (a.toNat + 2 ^ 32 * b.toNat)) (BitVec.ofNat 64 (c.toNat + 2 ^ 32 * d.toNat))
        (BitVec.ofNat 64 (e.toNat + 2 ^ 32 * f.toNat)) (if g.toNat % 2 = 1 then .reverse else .direct)
        (if g.toNat / 2 % 2 = 1 then .accumulating else .nonAccumulating) h
        (BitVec.ofNat 64 (i.toNat + 2 ^ 32 * j.toNat)) (BitVec.ofNat 64 (k.toNat + 2 ^ 32 * l.toNat))
        (BitVec.ofNat 64 (m.toNat + 2 ^ 32 * n.toNat)))

/-! The port, reset, and the whole step. -/

/-- A step at a released block whose next event is an arrival executes the command that the first frame of the
accepted agent decodes to, after taking that frame from its stream and the arrival from the events. -/
def Obligations.StepExecutesTheDecodedCommand : Prop :=
  ∀ (s : State) (who others : List Agent) (rest : List Event) (a : Agent) (f : Frame) (fs : List Frame) (i : Instr),
    s.env.rst = false → s.env.schedule = .arrive who :: rest → arbitrate who = some (a, others) →
    s.env.streams.get a = f :: fs → decode f = .ok i →
    step s = exec i ((s.setSchedule (waiting others rest)).setStream a fs)

/-- R289: a frame runs the same whichever agent sends it. -/
def Obligations.AnyAgentMaySendAnyFrame : Prop :=
  ∀ (a b : Agent) (f : Frame) (s : State), s.env.rst = false →
    step (s.offer a f) = runFrame f s ∧ step (s.offer b f) = step (s.offer a f)

/-- R285: of agents whose commands arrive together the port accepts one of highest priority in the order CAP, CTL, FS,
GYR, HOST, and the others stay. -/
def Obligations.PortAcceptsHighestPriorityFirst : Prop :=
  ∀ who : List Agent,
    (who = [] ↔ arbitrate who = none) ∧
    ∀ a others, arbitrate who = some (a, others) →
      a ∈ who ∧ others = who.erase a ∧
      ∀ b ∈ who, [Agent.cap, .ctl, .fs, .gyr, .host].idxOf a ≤ [Agent.cap, .ctl, .fs, .gyr, .host].idxOf b

/-- R324 (the spec's own inference from R310 and R311): an asserted rst returns every element to its reset value,
empties the response port and zeroes the outputs, from every state. -/
def Obligations.AssertedRstReturnsEveryElement : Prop :=
  ∀ (s : State) (rest : List Event), s.env.schedule = .rst true :: rest →
    ∃ t, step s = .next t ∧
      { t with env := State.reset.env, free := State.reset.free } = State.reset ∧
      t.outputs = ⟨0, 0, 0, false, false, false, false⟩ ∧ t.env.rst = true ∧ t.env.schedule = rest ∧
      t.env.streams = s.env.streams

/-- R310, R295, and R65's inference that no register changes by itself: while rst is asserted, with no event to come,
when rst is released, when the host takes a word, and at an arrival whose first agent has nothing to send (or of no agent)
a step completes and no element of the block changes. The rest is the model's choice: the streams stay, also while rst is
asserted (notes/assumptions/8.md), an agent with nothing to send changes nothing (notes/assumptions/1.md), and a take
removes the oldest response word and nothing else does (notes/assumptions/7.md). An asserted rst and an accepted command
are other statements. -/
def Obligations.EventsWithoutRstOrCommandChangeNoElement : Prop :=
  ∀ s : State, (∀ rest, s.env.schedule ≠ .rst true :: rest) →
    (s.env.rst = true ∨ s.env.schedule = [] ∨ (∃ rest, s.env.schedule = .rst false :: rest) ∨
      (∃ rest, s.env.schedule = .take :: rest) ∨
      (∃ who rest, s.env.schedule = .arrive who :: rest ∧
        ∀ a others, arbitrate who = some (a, others) → s.env.streams.get a = [])) →
    ∃ t, step s = .next t ∧ { t with env := s.env, resp := s.resp } = s ∧ t.env.streams = s.env.streams ∧
      (∀ rest, s.env.schedule = .take :: rest → t.resp = s.resp.drop 1) ∧
      ((∀ rest, s.env.schedule ≠ .take :: rest) → t.resp = s.resp)

/-- R311: what reset leaves, element by element. -/
def Obligations.ResetLeavesEveryElementAtItsValue : Prop :=
  State.reset.dec = ⟨.seeking, 0, #v[0, 0, 0, 0, 0], 0⟩ ∧
  State.reset.chan = ⟨#v[0, 0, 0, 0, 0], false, 0, 0⟩ ∧
  State.reset.ind = ⟨false, false, false⟩ ∧
  State.reset.seq = ⟨false, .manual, false, 0, 0, 0, false⟩ ∧
  State.reset.fs = ⟨false, false⟩ ∧
  State.reset.cal = ⟨.idle, 0, 0, 0, #v[0, 0, 0], #v[0, 0, 0]⟩ ∧
  State.reset.inp = ⟨5000, 800, 2200, 1500, 500000, false, .inert, .manualThisTick⟩ ∧
  State.reset.loop = ⟨1000, 2000, 0, 0, 0, 0, 0⟩ ∧
  State.reset.pid = ⟨0, 0, 0, .direct, .nonAccumulating, 5, 0, 0, 0, 0, 0, 0, 0⟩ ∧
  State.reset.err = ⟨false, false, false⟩ ∧
  State.reset.resp = [] ∧
  State.reset.outputs = ⟨0, 0, 0, false, false, false, false⟩

/-- R31: a REG_READ of each mapped address right after reset emits its reset value, and of every other address is a
bad access. -/
def Obligations.ResetReadsGiveTheResetColumn : Prop :=
  ∀ a : RegAddr,
    (¬ Rule.isUnmapped a → exec (.regRead a) State.reset = .next { State.reset with resp := [Rule.resetValue a] }) ∧
    (Rule.isUnmapped a →
      exec (.regRead a) State.reset = .next { State.reset with resp := [0], err := ⟨false, true, false⟩ })

/-- The invariant of R37 holds at reset, and reset is not faulted. -/
def Obligations.ResetMeetsTheInvariant : Prop := State.reset.Inv ∧ State.reset.faulted = false

/-- R37 (the spec's own inference): every step keeps the invariant, from every state that meets it. -/
def Obligations.EveryStepKeepsTheInvariant : Prop := ∀ s t : State, s.Inv → step s = .next t → t.Inv

/-- R77 (the spec's own inference from R71): from every state that meets the invariant a step completes; no command
waits, blocks or stops the machine. -/
def Obligations.InvariantStepsAlwaysComplete : Prop := ∀ s : State, s.Inv → ∃ t, step s = .next t

/-! RangeMapper. -/

/-- R100, R101: MAP in contract emits the word of R100 and changes nothing else; out of contract it sets
ERR_MAP_DOMAIN, emits one word and changes nothing else of the block. Nothing is said of that word
(notes/assumptions/2.md). -/
def Obligations.MapEmitsTheMappedValueOrFaults : Prop :=
  ∀ (s : State) (inLow inHigh inValue outLow outHigh deadband : Word),
    decode ⟨0x30, [inLow, inHigh, inValue, outLow, outHigh, deadband]⟩ =
      .ok (.map inLow inHigh inValue outLow outHigh deadband) ∧
    (Rule.keepsContract inLow.toInt inHigh.toInt outLow.toInt outHigh.toInt deadband.toInt →
      ∃ w : Word, exec (.map inLow inHigh inValue outLow outHigh deadband) s = .next { s with resp := s.resp ++ [w] } ∧
        w.toInt = Rule.mapped inLow.toInt inHigh.toInt inValue.toInt outLow.toInt outHigh.toInt deadband.toInt) ∧
    (¬ Rule.keepsContract inLow.toInt inHigh.toInt outLow.toInt outHigh.toInt deadband.toInt →
      ∃ t : State, exec (.map inLow inHigh inValue outLow outHigh deadband) s = .next t ∧ t.faulted = true ∧
        ∃ w : Word, { t with free := s.free } =
          { s with resp := s.resp ++ [w], err := { s.err with mapDomain := true } })

/-- R107 (the spec's own inference from R100): containment with the boundary reached exactly when the unclamped value
passes it, the center, monotonicity, the odd symmetry of the scaled term, and the deadband zone. -/
def Obligations.MapRangeObeysItsLaws : Prop :=
  ∀ inLow inHigh outLow outHigh db : Int, Rule.keepsContract inLow inHigh outLow outHigh db →
    (∀ v, ∃ r, mapRange inLow inHigh v outLow outHigh db = some r ∧ outLow ≤ r ∧ r ≤ outHigh ∧
      (r = outHigh ↔ outHigh ≤ avg outLow outHigh + mapScaled inLow inHigh (v - avg inLow inHigh) outLow outHigh db) ∧
      (r = outLow ↔ avg outLow outHigh + mapScaled inLow inHigh (v - avg inLow inHigh) outLow outHigh db ≤ outLow)) ∧
    mapRange inLow inHigh (avg inLow inHigh) outLow outHigh db = some (avg outLow outHigh) ∧
    (∀ v w r q, v ≤ w → mapRange inLow inHigh v outLow outHigh db = some r →
      mapRange inLow inHigh w outLow outHigh db = some q → r ≤ q) ∧
    (∀ c, mapScaled inLow inHigh (-c) outLow outHigh db = -mapScaled inLow inHigh c outLow outHigh db) ∧
    (∀ v, |v - avg inLow inHigh| ≤ db → mapRange inLow inHigh v outLow outHigh db = some (avg outLow outHigh))

/-- R102: AVG emits the floor of the exact mean, in the hardware form that never forms a + b in 32 bits; the result
lies between a and b. That the two forms are equal and the bounds are inferences the spec marks so. -/
def Obligations.AvgEmitsTheFloorMeanInShiftForm : Prop :=
  ∀ (s : State) (a b : Word),
    decode ⟨0x31, [a, b]⟩ = .ok (.avg a b) ∧
    exec (.avg a b) s = .next { s with resp := s.resp ++ [a.sshiftRight 1 + b.sshiftRight 1 + (a &&& b &&& 1)] } ∧
    (a.sshiftRight 1 + b.sshiftRight 1 + (a &&& b &&& 1)).toInt = (a.toInt + b.toInt) / 2 ∧
    min a.toInt b.toInt ≤ (a.toInt + b.toInt) / 2 ∧ (a.toInt + b.toInt) / 2 ≤ max a.toInt b.toInt

/-- R103: SIGN emits −1, 0 or +1 and changes nothing else. -/
def Obligations.SignEmitsMinusOneZeroOrOne : Prop :=
  ∀ (s : State) (x : Word),
    decode ⟨0x32, [x]⟩ = .ok (.sign x) ∧
    exec (.sign x) s = .next { s with resp := s.resp ++ [if x.toInt < 0 then 0xFFFFFFFF else if x = 0 then 0 else 1] }

/-- R104: NEGABS emits −|x|, which fits for every x, and changes nothing else. -/
def Obligations.NegabsEmitsTheNegatedAbsoluteValue : Prop :=
  ∀ (s : State) (x : Word), decode ⟨0x33, [x]⟩ = .ok (.negabs x) ∧ ∃ w : Word,
    exec (.negabs x) s = .next { s with resp := s.resp ++ [w] } ∧ w.toInt = -|x.toInt| ∧ (w = x ∨ w = -x)

/-! PidController. -/

/-- R130: PID_CONFIGURE with valid operands sets every PID element and nothing else; with invalid ones it is a
no-op. -/
def Obligations.PidConfigureSetsEveryElementOrNothing : Prop :=
  ∀ (s : State) (kp ki kd : Dword) (dir : Direction) (omode : OutputMode) (t : Word) (outMin outMax sp : Dword),
    decode ⟨0x40, (encode (.pidConfigure kp ki kd dir omode t outMin outMax sp)).operands⟩ =
      .ok (.pidConfigure kp ki kd dir omode t outMin outMax sp) ∧
    ((kp.toInt < 0 ∨ ki.toInt < 0 ∨ kd.toInt < 0 ∨ t.toInt ≤ 0 ∨ outMax.toInt ≤ outMin.toInt) →
      exec (.pidConfigure kp ki kd dir omode t outMin outMax sp) s = .next s) ∧
    ((0 ≤ kp.toInt ∧ 0 ≤ ki.toInt ∧ 0 ≤ kd.toInt ∧ 0 < t.toInt ∧ outMin.toInt < outMax.toInt) →
      ∃ p : PidState, exec (.pidConfigure kp ki kd dir omode t outMin outMax sp) s = .next { s with pid := p } ∧
        p.zp.toInt = (if dir = .reverse then -kp.toInt else kp.toInt) ∧
        p.zi.toInt = (if dir = .reverse then -1 else 1) * min (2 ^ 63 - 1) (ki.toInt * t.toInt / 1000) ∧
        p.zd.toInt = (if dir = .reverse then -1 else 1) * min (2 ^ 63 - 1) (kd.toInt * 1000 / t.toInt) ∧
        p.dir = dir ∧ p.omode = omode ∧ p.period = t ∧ p.outMin = outMin ∧ p.outMax = outMax ∧ p.setpoint = sp ∧
        p.integral = 0 ∧ p.prevMeas = 0 ∧ p.prevOut = 0 ∧ p.runCount = 0)

/-- R131: PID_RUN makes one step of the formulas and emits the output low word first; nothing else changes. -/
def Obligations.PidRunMakesOneStepAndEmitsTheOutput : Prop :=
  (∀ a b : Word, decode ⟨0x41, [a, b]⟩ = .ok (.pidRun (b ++ a))) ∧
  ∀ (s : State) (meas : Dword), s.pid.outMin.toInt ≤ s.pid.outMax.toInt →
    ∃ (p : PidState) (lo hi : Word),
      exec (.pidRun meas) s = .next { s with pid := p, resp := s.resp ++ [lo, hi] } ∧
      Rule.pidStepped s.pid p meas.toInt ∧ (hi ++ lo : Dword).toInt = Rule.output s.pid meas.toInt

/-- R135 (the spec's own inference from R131): after a PID_RUN and after a gyro-stabilized tick, PREV_OUT (the output)
and INTEGRAL lie in [OUT_MIN, OUT_MAX]. -/
def Obligations.PidOutputStaysWithinItsLimits : Prop :=
  ∀ (s t : State) (meas : Dword) (gx gy gz : Half) (i : Instr), s.pid.outMin.toInt ≤ s.pid.outMax.toInt →
    (i = .pidRun meas ∨
      (i = .ctrlTick gx gy gz false ∧ s.seq.loopRun = true ∧ s.chan.valid = true ∧ s.seq.mode = .gyroStabilized ∧
        Rule.tickInContract s)) →
    exec i s = .next t →
    t.pid.outMin = s.pid.outMin ∧ t.pid.outMax = s.pid.outMax ∧
    s.pid.outMin.toInt ≤ t.pid.prevOut.toInt ∧ t.pid.prevOut.toInt ≤ s.pid.outMax.toInt ∧
    s.pid.outMin.toInt ≤ t.pid.integral.toInt ∧ t.pid.integral.toInt ≤ s.pid.outMax.toInt

/-- R136 (the spec's own inference from R130 and R131): the first step after an accepted PID_CONFIGURE or a reset, by
PID_RUN or by a gyro-stabilized tick, has no derivative: its whole effect is independent of ZD and of the previous
measurement. -/
def Obligations.FirstPidRunHasNoDerivative : Prop :=
  (∀ (s : State) (meas zd prev : Dword), s.pid.runCount = 0 →
    ∃ t, exec (.pidRun meas) s = .next t ∧ t.pid.runCount = 1 ∧
      exec (.pidRun meas) { s with pid := { s.pid with zd := zd, prevMeas := prev } } =
        .next { t with pid := { t.pid with zd := zd } }) ∧
  (∀ (s : State) (gx gy gz : Half) (zd prev : Dword), s.pid.runCount = 0 → s.seq.loopRun = true → s.chan.valid = true →
    s.seq.mode = .gyroStabilized → Rule.tickInContract s →
    ∃ t, exec (.ctrlTick gx gy gz false) s = .next t ∧ t.pid.runCount = 1 ∧
      exec (.ctrlTick gx gy gz false) { s with pid := { s.pid with zd := zd, prevMeas := prev } } =
        .next { t with pid := { t.pid with zd := zd } }) ∧
  State.reset.pid.runCount = 0 ∧
  (∀ (s t : State) (kp ki kd : Dword) (dir : Direction) (omode : OutputMode) (per : Word) (lo hi sp : Dword),
    (0 ≤ kp.toInt ∧ 0 ≤ ki.toInt ∧ 0 ≤ kd.toInt ∧ 0 < per.toInt ∧ lo.toInt < hi.toInt) →
    exec (.pidConfigure kp ki kd dir omode per lo hi sp) s = .next t → t.pid.runCount = 0)

/-- R137 (the spec's own inference, notes/assumptions/12.md): whatever the command, RUN_COUNT stays, or counts up by one and
stops at 2^32 − 1 (PID_RUN, CTRL_TICK), or returns to 0 by PID_CONFIGURE (rst is no command); only a gyro-stabilized tick
that is a contract violation leaves it unspecified (R236). -/
def Obligations.RunCountReturnsToZeroOnlyByConfigure : Prop :=
  ∀ (i : Instr) (s t : State), exec i s = .next t →
    t.pid.runCount = s.pid.runCount ∨
    (i.opcode ∈ [.pidRun, .ctrlTick] ∧ t.pid.runCount.toNat = min (2 ^ 32 - 1) (s.pid.runCount.toNat + 1)) ∨
    (i.opcode = .pidConfigure ∧ t.pid.runCount = 0) ∨
    (Rule.violates i s ∧ s.seq.mode = .gyroStabilized ∧ t.seq.mode = .gyroStabilized)

/-- R132: PID_SET_LIMITS stores both limits, or nothing where min ≥ max; no other element changes. -/
def Obligations.PidSetLimitsStoresOrIgnores : Prop :=
  (∀ a b c d : Word, decode ⟨0x42, [a, b, c, d]⟩ = .ok (.pidSetLimits (b ++ a) (d ++ c))) ∧
  ∀ (s : State) (lo hi : Dword),
    exec (.pidSetLimits lo hi) s =
      .next (if lo.toInt < hi.toInt then { s with pid := { s.pid with outMin := lo, outMax := hi } } else s)

/-- R133: PID_SET_PERIOD rescales ZI by new/old and ZD by old/new, each rounded once toward zero and saturated, and
keeps everything else; a non-positive period is ignored and an equal one changes nothing. -/
def Obligations.PidSetPeriodRescalesTheGains : Prop :=
  ∀ (s : State) (t : Word), 1 ≤ s.pid.period.toInt →
    decode ⟨0x43, [t]⟩ = .ok (.pidSetPeriod t) ∧
    (t.toInt ≤ 0 → exec (.pidSetPeriod t) s = .next s) ∧
    (t = s.pid.period → exec (.pidSetPeriod t) s = .next s) ∧
    (0 < t.toInt → ∃ zi zd : Dword,
      exec (.pidSetPeriod t) s = .next { s with pid := { s.pid with zi := zi, zd := zd, period := t } } ∧
      zi.toInt = max (-2 ^ 63) (min (2 ^ 63 - 1) ((s.pid.zi.toInt * t.toInt).tdiv s.pid.period.toInt)) ∧
      zd.toInt = max (-2 ^ 63) (min (2 ^ 63 - 1) ((s.pid.zd.toInt * s.pid.period.toInt).tdiv t.toInt)))

/-- R134: PID_SET_SETPOINT stores the set-point and nothing else. -/
def Obligations.PidSetSetpointStoresTheSetpoint : Prop :=
  (∀ a b : Word, decode ⟨0x44, [a, b]⟩ = .ok (.pidSetSetpoint (b ++ a))) ∧
  ∀ (s : State) (sp : Dword), exec (.pidSetSetpoint sp) s = .next { s with pid := { s.pid with setpoint := sp } }

/-! PulseDecoder. -/

/-- R160: CAP_WIDTH writes NEG_WIDTH and nothing else. -/
def Obligations.CapWidthRecordsTheLowWidth : Prop :=
  ∀ (s : State) (w : Word), decode ⟨0x10, [w]⟩ = .ok (.capWidth w) ∧
    exec (.capWidth w) s = .next { s with dec := { s.dec with negWidth := w } }

/-- R161 as the spec's own table R164 lays it out: the transitions of CAP_PERIOD, row by row, with the commit of R163
in row 5; CAP_WIDTH changes n alone. -/
def Obligations.CapPeriodFollowsTheTransitionTable : Prop :=
  (∀ p now : Word, decode ⟨0x11, [p, now]⟩ = .ok (.capPeriod p now)) ∧
  ∀ (s : State) (p now : Word) (n pos : Int), n = s.dec.negWidth.toNat → pos = p.toNat - n →
    exec (.capWidth p) s = .next { s with dec := { s.dec with negWidth := p } } ∧
    (n > s.inp.syncGap.toNat → Rule.isPlausible s.inp pos →
      exec (.capPeriod p now) s = .next { s with dec := { s.dec with
        phase := .accumulating, index := 1, buf := s.dec.buf.set 0 (Rule.stored s.inp pos) } }) ∧
    (n > s.inp.syncGap.toNat → ¬ Rule.isPlausible s.inp pos →
      exec (.capPeriod p now) s = .next { s with dec := { s.dec with phase := .seeking, index := 0 } }) ∧
    (n ≤ s.inp.syncGap.toNat → s.dec.phase = .seeking → exec (.capPeriod p now) s = .next s) ∧
    (n ≤ s.inp.syncGap.toNat → s.dec.phase = .accumulating → s.dec.index = 1 →
      Rule.isPlausible s.inp n → Rule.isPlausible s.inp pos →
      exec (.capPeriod p now) s = .next { s with dec := { s.dec with
        index := 3, buf := (s.dec.buf.set 1 (Rule.stored s.inp n)).set 2 (Rule.stored s.inp pos) } }) ∧
    (n ≤ s.inp.syncGap.toNat → s.dec.phase = .accumulating → s.dec.index = 3 →
      Rule.isPlausible s.inp n → Rule.isPlausible s.inp pos →
      ∃ buf, buf = (s.dec.buf.set 3 (Rule.stored s.inp n)).set 4 (Rule.stored s.inp pos) ∧
        exec (.capPeriod p now) s = .next { s with
          dec := { s.dec with phase := .seeking, index := 0, buf := buf }
          chan := { ch := buf, valid := true, tCommit := now, frameSeq := s.chan.frameSeq + 1 }
          ind := { s.ind with frameInd := !s.ind.frameInd, losInd := false } }) ∧
    (n ≤ s.inp.syncGap.toNat → s.dec.phase = .accumulating →
      (¬ Rule.isPlausible s.inp n ∨ ¬ Rule.isPlausible s.inp pos) →
      exec (.capPeriod p now) s = .next { s with dec := { s.dec with phase := .seeking, index := 0 } })

/-- R166 (the spec's own inference) with the premise it leaves unsaid (notes/assumptions/11.md), that the two low
widths are no sync gaps: from any decoder state the six captures of one frame commit exactly once, the five slots in
order, with the last time, and the decoder seeks again. -/
def Obligations.OneGapAndTwoPairsCommitOneFrame : Prop :=
  ∀ (s : State) (g s0 s1 s2 s3 s4 t0 t1 t2 : Word),
    s.inp.syncGap.toNat < g.toNat → s1.toNat ≤ s.inp.syncGap.toNat → s3.toNat ≤ s.inp.syncGap.toNat →
    (∀ w ∈ [s0, s1, s2, s3, s4], Rule.isPlausible s.inp w.toNat) →
    g.toNat + s0.toNat < 2 ^ 32 →
    execAll [.capWidth g, .capPeriod (g + s0) t0, .capWidth s1, .capPeriod (s1 + s2) t1, .capWidth s3,
        .capPeriod (s3 + s4) t2] s =
      .next { s with
        dec := { phase := .seeking, index := 0, negWidth := s3,
                 buf := #v[Rule.stored s.inp s0.toNat, Rule.stored s.inp s1.toNat, Rule.stored s.inp s2.toNat,
                           Rule.stored s.inp s3.toNat, Rule.stored s.inp s4.toNat] }
        chan := { ch := #v[Rule.stored s.inp s0.toNat, Rule.stored s.inp s1.toNat, Rule.stored s.inp s2.toNat,
                           Rule.stored s.inp s3.toNat, Rule.stored s.inp s4.toNat],
                  valid := true, tCommit := t2, frameSeq := s.chan.frameSeq + 1 }
        ind := { s.ind with frameInd := !s.ind.frameInd, losInd := false } }

/-- R163 and R22, with the inferences R73 and R214: whatever the command, ChannelState either stays, or loses VALID by
an FS_TICK, or is replaced whole by the commit of a CAP_PERIOD, which advances FRAME_SEQ, inverts FRAME_IND, clears
LOS_IND and takes the vector from the candidate slots. -/
def Obligations.ChannelsChangeOnlyByWholeCommits : Prop :=
  ∀ (i : Instr) (s t : State), exec i s = .next t →
    t.chan = s.chan ∨
    (i.opcode = .fsTick ∧ t.chan = { s.chan with valid := false }) ∨
    ∃ p now, i = .capPeriod p now ∧ s.dec.phase = .accumulating ∧
      t.chan = { ch := t.dec.buf, valid := true, tCommit := now, frameSeq := s.chan.frameSeq + 1 } ∧
      t.ind = { s.ind with frameInd := !s.ind.frameInd, losInd := false }

/-! GyroBiasCalibrator. -/

/-- R190: CAL_START sets the counts and clears the sums, or is refused. -/
def Obligations.CalStartBeginsOrIsRefused : Prop :=
  ∀ (s : State) (warmup n : Word),
    decode ⟨0x50, [warmup, n]⟩ = .ok (.calStart warmup n) ∧
    exec (.calStart warmup n) s = .next
      (if s.cal.calState = .idle ∧ s.seq.gyroFallback = false ∧ s.seq.loopRun = false ∧ n ≠ 0 then
        { s with cal := { s.cal with calRem := warmup, calN := n, calCnt := 0, calSum := #v[0, 0, 0],
                                     calState := if warmup = 0 then .accumulate else .warmup } }
      else s)

/-- R191, R193: one CAL_SAMPLE in each calibrator state, for states that meet the calibrator's invariant. -/
def Obligations.CalSampleFollowsTheStateMachine : Prop :=
  (∀ a b c d : Word, decode ⟨0x51, [a, b, c, d]⟩ =
    .ok (.calSample (a.extractLsb' 0 16) (b.extractLsb' 0 16) (c.extractLsb' 0 16) (d.getLsbD 0))) ∧
  ∀ (s : State) (x y z : Half) (err : Bool), s.cal.Inv →
    (s.cal.calState ≠ .warmup → s.cal.calState ≠ .accumulate → exec (.calSample x y z err) s = .next s) ∧
    ((s.cal.calState = .warmup ∨ s.cal.calState = .accumulate) → err = true →
      exec (.calSample x y z err) s = .next { s with
        cal := { s.cal with calState := .failed }, seq := { s.seq with mode := .manual, gyroFallback := true } }) ∧
    (s.cal.calState = .warmup → err = false →
      exec (.calSample x y z err) s = .next { s with cal := { s.cal with
        calRem := s.cal.calRem - 1, calState := if s.cal.calRem = 1 then .accumulate else .warmup } }) ∧
    (s.cal.calState = .accumulate → err = false → ∃ sx sy sz : Dword,
      sx.toInt = s.cal.calSum[0].toInt + x.toInt ∧ sy.toInt = s.cal.calSum[1].toInt + y.toInt ∧
      sz.toInt = s.cal.calSum[2].toInt + z.toInt ∧
      (s.cal.calCnt + 1 ≠ s.cal.calN → exec (.calSample x y z err) s = .next { s with cal := { s.cal with
        calSum := #v[sx, sy, sz], calCnt := s.cal.calCnt + 1 } }) ∧
      (s.cal.calCnt + 1 = s.cal.calN → ∃ bx by' bz : Half,
        bx.toInt = sx.toInt.tdiv s.cal.calN.toNat ∧ by'.toInt = sy.toInt.tdiv s.cal.calN.toNat ∧
        bz.toInt = sz.toInt.tdiv s.cal.calN.toNat ∧
        exec (.calSample x y z err) s = .next { s with
          cal := { s.cal with calSum := #v[sx, sy, sz], calCnt := s.cal.calCnt + 1, bias := #v[bx, by', bz],
                              calState := .done }
          seq := { s.seq with mode := .gyroStabilized } }))

/-- R195 (the spec's own inference from R190 and R191): after an accepted CAL_START w, n and samples without error,
the calibration is Done exactly at the (w + n)-th sample, with the truncated means of samples w + 1 to w + n; an error
at any of the first w + n samples ends it in Failed at that sample. -/
def Obligations.CalibrationEndsAtTheCountedSample : Prop :=
  ∀ (s : State) (w n : Word) (rs : List (Half × Half × Half)),
    s.cal.calState = .idle → s.seq.gyroFallback = false → s.seq.loopRun = false → n ≠ 0 →
    rs.length = w.toNat + n.toNat →
    (∃ t, execAll (.calStart w n :: rs.map Rule.reading) s = .next t ∧ t.cal.calState = .done ∧
      t.seq.mode = .gyroStabilized ∧
      t.cal.bias[0].toInt = (((rs.drop w.toNat).map (fun r : Half × Half × Half => r.1.toInt)).sum).tdiv n.toNat ∧
      t.cal.bias[1].toInt = (((rs.drop w.toNat).map (fun r : Half × Half × Half => r.2.1.toInt)).sum).tdiv n.toNat ∧
      t.cal.bias[2].toInt = (((rs.drop w.toNat).map (fun r : Half × Half × Half => r.2.2.toInt)).sum).tdiv n.toNat) ∧
    (∀ k < w.toNat + n.toNat, ∃ t, execAll (.calStart w n :: (rs.take k).map Rule.reading) s = .next t ∧
      (t.cal.calState = .warmup ∨ t.cal.calState = .accumulate) ∧
      ∀ x y z : Half, ∃ u, exec (.calSample x y z true) t = .next u ∧ u.cal.calState = .failed ∧
        u.seq.gyroFallback = true ∧ u.seq.mode = .manual)

/-- R194 (the spec's own inference from R190 to R193): whatever the command, CAL_STATE moves only along Idle, Warmup,
Accumulate, Done or Failed and never leaves Done or Failed; BIAS is written and MODE becomes GyroStabilized only in
the move from Accumulate to Done. -/
def Obligations.CalibratorRunsOncePerSession : Prop :=
  ∀ (i : Instr) (s t : State), exec i s = .next t →
    (t.cal.calState = s.cal.calState ∨
      (s.cal.calState, t.cal.calState) ∈ [(CalPhase.idle, CalPhase.warmup), (.idle, .accumulate), (.warmup, .accumulate),
        (.warmup, .failed), (.accumulate, .done), (.accumulate, .failed)]) ∧
    (t.cal.bias ≠ s.cal.bias → s.cal.calState = .accumulate ∧ t.cal.calState = .done) ∧
    (t.seq.mode = .gyroStabilized →
      s.seq.mode = .gyroStabilized ∨ (s.cal.calState = .accumulate ∧ t.cal.calState = .done))

/-! FailsafeSupervisor. -/

/-- R211: FS_TICK: the staleness test modulo 2^32 and the motor-fault line, for every operand. -/
def Obligations.FsTickChecksStalenessAndFault : Prop :=
  (∀ a b : Word, decode ⟨0x20, [a, b]⟩ = .ok (.fsTick a (b.getLsbD 0))) ∧
  ∀ (s : State) (now : Word) (fault stale cut : Bool),
    (stale = true ↔ s.inp.timeout.toNat < (now.toNat + 2 ^ 32 - s.chan.tCommit.toNat) % 2 ^ 32) →
    (cut = true ↔ fault = true ∧ s.inp.faultPolicy = .cutWeapon) →
    exec (.fsTick now fault) s = .next { s with
      chan := { s.chan with valid := if stale then false else s.chan.valid }
      ind := { s.ind with losInd := if stale then true else s.ind.losInd }
      fs := { faultIn := fault, faultLatch := if cut then true else s.fs.faultLatch }
      seq := { s.seq with weaponWidth := if cut then 0 else s.seq.weaponWidth
                          weaponEn := if cut then false else s.seq.weaponEn } }

/-- R212 (the spec's own inference from R211): with the reset TIMEOUT, 501 ms after the last commit the channels
become invalid and 499 ms after it nothing of VALID and LOS_IND changes, for every commit time, across the wrap of
`now`. -/
def Obligations.FailsafeTimesOutAcrossTheWrap : Prop :=
  ∀ (s : State) (f : Bool), s.inp.timeout = 500000 →
    (∃ t, exec (.fsTick (s.chan.tCommit + 501000) f) s = .next t ∧ t.chan.valid = false ∧ t.ind.losInd = true) ∧
    (∃ t, exec (.fsTick (s.chan.tCommit + 499000) f) s = .next t ∧ t.chan.valid = s.chan.valid ∧
      t.ind.losInd = s.ind.losInd)

/-- R25, with the inferences R215 and R37 item 5 (notes/assumptions/12.md): FAULT_LATCH is set only by an FS_TICK with
the line asserted under CutWeapon and cleared by no command; while it is set an idle weapon stays idle, but for a
violating tick; without CutWeapon no FS_TICK changes the weapon outputs. -/
def Obligations.FaultLatchHoldsTheWeaponIdle : Prop :=
  ∀ (i : Instr) (s t : State), exec i s = .next t →
    (s.fs.faultLatch = true → t.fs.faultLatch = true) ∧
    (s.fs.faultLatch = false → t.fs.faultLatch = true →
      ∃ now, i = .fsTick now true ∧ s.inp.faultPolicy = .cutWeapon ∧ t.seq.weaponEn = false ∧ t.seq.weaponWidth = 0) ∧
    (s.fs.faultLatch = true → s.seq.weaponEn = false → s.seq.weaponWidth = 0 →
      (t.seq.weaponEn = false ∧ t.seq.weaponWidth = 0) ∨ Rule.violates i s) ∧
    (i.opcode = .fsTick → s.inp.faultPolicy = .inert →
      t.seq.weaponEn = s.seq.weaponEn ∧ t.seq.weaponWidth = s.seq.weaponWidth)

/-! ControlLoop. -/

/-- R230: LOOP_START sets LOOP_RUN unless a calibration is in progress; nothing else changes; no command stops the
loop. -/
def Obligations.LoopStartRunsUnlessCalibrating : Prop :=
  decode ⟨0x60, []⟩ = .ok .loopStart ∧ ∀ s : State, exec .loopStart s = .next
    (if s.cal.calState = .warmup ∨ s.cal.calState = .accumulate then s
     else { s with seq := { s.seq with loopRun := true } }) ∧
    ∀ (i : Instr) (t : State), exec i s = .next t → s.seq.loopRun = true → t.seq.loopRun = true

/-- R231: a tick before LOOP_START changes nothing; a tick without valid channels issues neutral outputs, inverts
LOOP_IND and changes nothing else, whatever its operands. -/
def Obligations.StoppedAndInvalidTicksAreInert : Prop :=
  ∀ (s : State) (gx gy gz : Half) (gerr : Bool),
    (s.seq.loopRun = false → exec (.ctrlTick gx gy gz gerr) s = .next s) ∧
    (s.seq.loopRun = true → s.chan.valid = false → exec (.ctrlTick gx gy gz gerr) s = .next { s with
      ind := { s.ind with loopInd := !s.ind.loopInd }
      seq := { s.seq with driveLeft := 0, driveRight := 0, weaponWidth := 0, weaponEn := false } })

/-- R231, R232, R234: a valid Manual tick in contract mixes elevator and aileron, shapes the drives and maps the
weapon, whatever the gyro operands; it changes nothing else. -/
def Obligations.ManualTickMixesElevatorAndAileron : Prop :=
  ∀ (s : State) (gx gy gz : Half) (gerr : Bool), s.seq.loopRun = true → s.chan.valid = true → s.seq.mode = .manual →
    Rule.tickInContract s →
    ∃ t, exec (.ctrlTick gx gy gz gerr) s = .next t ∧
      Rule.mixedTick s t
        (Rule.channel s s.chan.ch[1] s.loop.driveRange - Rule.channel s s.chan.ch[0] s.loop.driveRange)
        (Rule.channel s s.chan.ch[1] s.loop.driveRange + Rule.channel s s.chan.ch[0] s.loop.driveRange) s.pid

/-- R231, R233, R234: a valid gyro-stabilized tick in contract runs one PID step on the bias-corrected z rate with the
negated yaw target as set-point, and mixes elevator and correction; it changes nothing else. -/
def Obligations.GyroTickMixesElevatorAndPidCorrection : Prop :=
  ∀ (s : State) (gx gy gz : Half), s.seq.loopRun = true → s.chan.valid = true → s.seq.mode = .gyroStabilized →
    Rule.tickInContract s → s.pid.outMin.toInt ≤ s.pid.outMax.toInt →
    ∃ (t : State) (p q : PidState) (meas corr : Int), exec (.ctrlTick gx gy gz false) s = .next t ∧
      p = { s.pid with setpoint := p.setpoint } ∧
      p.setpoint.toInt = -Rule.channel s s.chan.ch[0] s.loop.yawFs * 65536 ∧
      meas = (gz.toInt - s.cal.bias[2].toInt) * 65536 ∧ Rule.pidStepped p q meas ∧
      corr = (Rule.output p meas).tdiv 65536 ∧
      Rule.mixedTick s t (Rule.channel s s.chan.ch[1] s.loop.driveRange + corr)
        (Rule.channel s s.chan.ch[1] s.loop.driveRange - corr) q

/-- R231: a valid gyro-stabilized tick with a gyro error falls back; under ManualThisTick the tick is the Manual tick
of the fallen-back state, under NeutralThisTick it is neutral. -/
def Obligations.GyroErrorTickFallsBack : Prop :=
  ∀ (s : State) (gx gy gz : Half), s.seq.loopRun = true → s.chan.valid = true → s.seq.mode = .gyroStabilized →
    (s.inp.gyroErrPolicy = .manualThisTick →
      exec (.ctrlTick gx gy gz true) s =
        exec (.ctrlTick 0 0 0 false) { s with seq := { s.seq with mode := .manual, gyroFallback := true } }) ∧
    (s.inp.gyroErrPolicy = .neutralThisTick →
      exec (.ctrlTick gx gy gz true) s = .next { s with
        ind := { s.ind with loopInd := !s.ind.loopInd }
        seq := { s.seq with mode := .manual, gyroFallback := true, driveLeft := 0, driveRight := 0,
                            weaponWidth := 0, weaponEn := false } })

/-- R238 (the spec's own inference from R231 and R193): after a gyro error on a valid gyro-stabilized tick, MODE stays
Manual and GYRO_FALLBACK stays set through every sequence of commands that follows. -/
def Obligations.GyroFallbackLastsTheSession : Prop :=
  ∀ (s t u : State) (gx gy gz : Half) (is : List Instr), s.cal.calState = .done →
    s.seq.loopRun = true → s.chan.valid = true → s.seq.mode = .gyroStabilized →
    exec (.ctrlTick gx gy gz true) s = .next t → execAll is t = .next u →
    t.seq.mode = .manual ∧ t.seq.gyroFallback = true ∧ u.seq.mode = .manual ∧ u.seq.gyroFallback = true

/-- R238 and R196 (the spec's own inferences from R190, R191, R193 and R231): a state that has fallen back is reached by a
gyro error on a valid gyro-stabilized tick after a calibration and by a failed calibration, and every step but an asserted
rst keeps it so. -/
def Obligations.EveryStepKeepsTheFallback : Prop :=
  (∀ s t : State, (∀ rest, s.env.schedule ≠ .rst true :: rest) → Rule.fallenBack s → step s = .next t →
    Rule.fallenBack t) ∧
  (∀ (s t : State) (gx gy gz : Half), s.cal.calState = .done → s.seq.loopRun = true → s.chan.valid = true →
    s.seq.mode = .gyroStabilized → exec (.ctrlTick gx gy gz true) s = .next t → Rule.fallenBack t) ∧
  (∀ (s t : State) (x y z : Half), s.cal.calState = .warmup ∨ s.cal.calState = .accumulate →
    exec (.calSample x y z true) s = .next t → Rule.fallenBack t)

/-- R239 (the spec's own inference from R231 and R232, notes/assumptions/12.md): after a tick of a running loop that
is no contract violation the outputs lie in their ranges, each drive is 0 or at least the output deadband, and a tick
without valid channels leaves all four at 0. -/
def Obligations.TickOutputsStayContained : Prop :=
  ∀ (s t : State) (gx gy gz : Half) (gerr : Bool), s.seq.loopRun = true →
    ¬ Rule.violates (.ctrlTick gx gy gz gerr) s → exec (.ctrlTick gx gy gz gerr) s = .next t →
    |t.seq.driveLeft.toInt| ≤ s.loop.driveRange.toNat ∧ |t.seq.driveRight.toInt| ≤ s.loop.driveRange.toNat ∧
    (t.seq.driveLeft = 0 ∨ (s.loop.outDeadband.toNat : Int) ≤ |t.seq.driveLeft.toInt|) ∧
    (t.seq.driveRight = 0 ∨ (s.loop.outDeadband.toNat : Int) ≤ |t.seq.driveRight.toInt|) ∧
    t.seq.weaponWidth.toNat ≤ s.loop.weaponRange.toNat ∧
    (s.chan.valid = false →
      t.seq.driveLeft = 0 ∧ t.seq.driveRight = 0 ∧ t.seq.weaponWidth = 0 ∧ t.seq.weaponEn = false)

/-- R236: a valid tick whose maps break their contract completes with ERR_MAP_DOMAIN, LOOP_IND inverted and the gyro
fallback applied; only the four outputs, and in GyroStabilized mode five PID elements, are left to free values. -/
def Obligations.ViolatingTickLeavesOnlyItsOutputsOpen : Prop :=
  ∀ (s : State) (gx gy gz : Half) (gerr : Bool), s.seq.loopRun = true → s.chan.valid = true → ¬ Rule.tickInContract s →
    (s.seq.mode = .gyroStabilized → gerr = true → s.inp.gyroErrPolicy = .manualThisTick) →
    ∃ t, exec (.ctrlTick gx gy gz gerr) s = .next t ∧ t.faulted = true ∧
      { t with free := s.free } = { s with
        err := { s.err with mapDomain := true }
        ind := { s.ind with loopInd := !s.ind.loopInd }
        seq := { (if s.seq.mode = .gyroStabilized ∧ gerr = true then
                    { s.seq with mode := .manual, gyroFallback := true } else s.seq) with
          driveLeft := t.seq.driveLeft, driveRight := t.seq.driveRight,
          weaponWidth := t.seq.weaponWidth, weaponEn := t.seq.weaponEn }
        pid := if s.seq.mode = .gyroStabilized ∧ gerr = false then
            { s.pid with setpoint := t.pid.setpoint, integral := t.pid.integral, prevMeas := t.pid.prevMeas,
                         prevOut := t.pid.prevOut, runCount := t.pid.runCount }
          else s.pid }

/-- R237 (the spec's own inference from R161 and R231): the frame of the end-to-end scenario, then a Manual tick, with
the reset decoder configuration and input range: the vector is committed and left, right and weapon are 0. -/
def Obligations.CenteredFrameThenManualTickIsStill : Prop :=
  ∀ (s : State) (now : Word) (gx gy gz : Half) (gerr : Bool),
    s.inp.syncGap = 5000 → s.inp.pulseMin = 800 → s.inp.pulseMax = 2200 → s.inp.recenter = false →
    s.loop.inLow = 1000 → s.loop.inHigh = 2000 → s.loop.chDeadband.toNat < 500 →
    s.seq.loopRun = true → s.seq.mode = .manual →
    ∃ t, execAll (ppmFrame 6000 1500 1500 1000 1500 1500 now ++ [.ctrlTick gx gy gz gerr]) s = .next t ∧
      t.chan = { ch := #v[1500, 1500, 1000, 1500, 1500], valid := true, tCommit := now,
                 frameSeq := s.chan.frameSeq + 1 } ∧
      t.seq = { s.seq with driveLeft := 0, driveRight := 0, weaponWidth := 0, weaponEn := !s.fs.faultLatch } ∧
      t.pid = s.pid ∧ t.err = s.err

/-! Register access. -/

/-- R260: NOP changes nothing, in every state; word 0 = 0 with operand words is no command, and only NOP
encodes so. -/
def Obligations.NopChangesNothing : Prop :=
  decode ⟨0, []⟩ = .ok .nop ∧ (∀ (w : Word) (ws : List Word), decode ⟨0, w :: ws⟩ = .error .wrongLength) ∧
  (∀ s : State, exec .nop s = .next s) ∧ ∀ i : Instr, (encode i).word0 = 0 → i = .nop

/-- R261, R64: REG_READ emits one word: the register of a mapped address with no other effect, or 0 with ERR_BAD_REG
for a misaligned or unmapped address. -/
def Obligations.RegReadEmitsTheRegisterOrZero : Prop :=
  ∀ (s : State) (a : RegAddr),
    decode ⟨(0 : BitVec 16) ++ a ++ (0x70 : BitVec 8), []⟩ = .ok (.regRead a) ∧
    (Rule.isUnmapped a → exec (.regRead a) s =
      .next { s with resp := s.resp ++ [0], err := { s.err with badReg := true } }) ∧
    (¬ Rule.isUnmapped a → ∃ row ∈ regMap, row.addr = a ∧
      exec (.regRead a) s = .next { s with resp := s.resp ++ [s.readReg row.reg] })

/-- R262, R64: REG_WRITE changes only the configuration, and only at 0x28 to 0x58; elsewhere it sets ERR_BAD_REG and
changes nothing else. -/
def Obligations.RegWriteReachesOnlyWritableRegisters : Prop :=
  ∀ (s : State) (a : RegAddr) (v : Word),
    decode ⟨(0 : BitVec 16) ++ a ++ (0x71 : BitVec 8), [v]⟩ = .ok (.regWrite a v) ∧
    (Rule.isWritable a → ∃ (c : InputConfig) (l : LoopConfig),
      exec (.regWrite a v) s = .next { s with inp := c, loop := l } ∧
      ∀ row ∈ regMap, { s with inp := c, loop := l }.readReg row.reg =
        if row.addr = a then v &&& Rule.writeMask a else s.readReg row.reg) ∧
    (¬ Rule.isWritable a → exec (.regWrite a v) s = .next { s with err := { s.err with badReg := true } })

/-- R265 (the spec's own inference from R263 and R264): a REG_WRITE of a writable register followed by a REG_READ of
it emits the stored field of the value. -/
def Obligations.WrittenRegisterReadsBackMasked : Prop :=
  ∀ (s : State) (a : RegAddr) (v : Word), Rule.isWritable a →
    ∃ t, execAll [.regWrite a v, .regRead a] s = .next t ∧ t.resp = s.resp ++ [v &&& Rule.writeMask a]

/-- R32: the bits of STATUS as REG_READ 0x00 emits them. -/
def Obligations.StatusReadHasItsFieldsInPlace : Prop :=
  ∀ s : State, ∃ w : Word, exec (.regRead 0x00) s = .next { s with resp := s.resp ++ [w] } ∧
    w.getLsbD 0 = s.chan.valid ∧ w.getLsbD 1 = s.ind.losInd ∧ w.getLsbD 2 = s.ind.frameInd ∧
    w.getLsbD 3 = s.ind.loopInd ∧ w.getLsbD 4 = decide (s.seq.mode = .gyroStabilized) ∧
    w.getLsbD 5 = s.seq.gyroFallback ∧ w.getLsbD 6 = s.seq.loopRun ∧ w.getLsbD 7 = s.fs.faultIn ∧
    w.getLsbD 8 = s.fs.faultLatch ∧
    w.extractLsb' 9 3 = (match s.cal.calState with
      | .idle => 0
      | .warmup => 1
      | .accumulate => 2
      | .done => 3
      | .failed => 4) ∧
    w.extractLsb' 12 4 = 0 ∧ w.getLsbD 16 = s.err.illegalOp ∧ w.getLsbD 17 = s.err.badReg ∧
    w.getLsbD 18 = s.err.mapDomain ∧ w.extractLsb' 19 13 = 0

/-- R62, R263: the two reads of a 64-bit PID value, low half at the lower address, together give the value, and the
other numeric registers read as their elements. -/
def Obligations.RegisterReadsGiveTheElements : Prop :=
  ∀ s : State,
    (∀ r ∈ [((0x80 : RegAddr), s.pid.zp), (0x88, s.pid.zi), (0x90, s.pid.zd), (0x98, s.pid.outMin), (0xA0, s.pid.outMax),
        (0xA8, s.pid.setpoint), (0xB0, s.pid.integral), (0xB8, s.pid.prevMeas), (0xC0, s.pid.prevOut)],
      ∃ lo hi : Word, execAll [.regRead r.1, .regRead (r.1 + 4)] s = .next { s with resp := s.resp ++ [lo, hi] } ∧
        (hi ++ lo : Dword) = r.2) ∧
    (∀ r ∈ [((0x08 : RegAddr), s.dec.negWidth), (0x0C, s.chan.frameSeq), (0x10, s.chan.ch[0]), (0x14, s.chan.ch[1]),
        (0x18, s.chan.ch[2]), (0x1C, s.chan.ch[3]), (0x20, s.chan.ch[4]), (0x24, s.chan.tCommit),
        (0x6C, s.seq.driveLeft), (0x70, s.seq.driveRight), (0x74, s.seq.weaponWidth), (0xC8, s.pid.period),
        (0xD0, s.pid.runCount)],
      exec (.regRead r.1) s = .next { s with resp := s.resp ++ [r.2] }) ∧
    (∀ r ∈ [((0x60 : RegAddr), s.cal.bias[0]), (0x64, s.cal.bias[1]), (0x68, s.cal.bias[2])],
      ∃ w : Word, exec (.regRead r.1) s = .next { s with resp := s.resp ++ [w] } ∧ w.toInt = r.2.toInt)

/-- R33, R34, R35 and R263: the bits of DEC_STATE, CONFIG, PID_FLAGS and WEAPON_EN as REG_READ emits them, and the
configuration values, zero-extended from their fields. -/
def Obligations.FieldRegistersReadInPlace : Prop :=
  ∀ s : State,
    (∃ w : Word, exec (.regRead 0x04) s = .next { s with resp := s.resp ++ [w] } ∧
      w.getLsbD 0 = decide (s.dec.phase = .accumulating) ∧ w.extractLsb' 1 3 = s.dec.index ∧
      w.extractLsb' 4 28 = 0) ∧
    (∃ w : Word, exec (.regRead 0x28) s = .next { s with resp := s.resp ++ [w] } ∧
      w.getLsbD 0 = s.inp.recenter ∧ w.getLsbD 1 = decide (s.inp.faultPolicy = .cutWeapon) ∧
      w.getLsbD 2 = decide (s.inp.gyroErrPolicy = .neutralThisTick) ∧ w.extractLsb' 3 29 = 0) ∧
    (∃ w : Word, exec (.regRead 0xCC) s = .next { s with resp := s.resp ++ [w] } ∧
      w.getLsbD 0 = decide (s.pid.dir = .reverse) ∧ w.getLsbD 1 = decide (s.pid.omode = .accumulating) ∧
      w.extractLsb' 2 30 = 0) ∧
    (∃ w : Word, exec (.regRead 0x78) s = .next { s with resp := s.resp ++ [w] } ∧
      w.getLsbD 0 = s.seq.weaponEn ∧ w.extractLsb' 1 31 = 0) ∧
    (∀ r ∈ [((0x2C : RegAddr), s.inp.syncGap.toNat), (0x30, s.inp.pulseMin.toNat), (0x34, s.inp.pulseMax.toNat),
        (0x38, s.inp.neutral.toNat), (0x3C, s.inp.timeout.toNat), (0x40, s.loop.inLow.toNat), (0x44, s.loop.inHigh.toNat),
        (0x48, s.loop.chDeadband.toNat), (0x4C, s.loop.driveRange.toNat), (0x50, s.loop.outDeadband.toNat),
        (0x54, s.loop.weaponRange.toNat), (0x58, s.loop.yawFs.toNat)],
      ∃ w : Word, exec (.regRead r.1) s = .next { s with resp := s.resp ++ [w] } ∧ w.toNat = r.2)

/-! Rules over every command. -/

/-- R21 to R30, element by element: the commands that the "written by" columns let change it (for VALID, LOS_IND and the
elements of a policy: in which direction and under which policy); every other command leaves it. -/
def Obligations.ElementsChangeOnlyByTheirListedWriters : Prop :=
  ∀ (i : Instr) (s t : State), exec i s = .next t →
    (t.dec.negWidth ≠ s.dec.negWidth → i.opcode = .capWidth) ∧
    ({ t.dec with negWidth := s.dec.negWidth } ≠ s.dec → i.opcode = .capPeriod) ∧
    (t.chan.ch ≠ s.chan.ch ∨ t.chan.tCommit ≠ s.chan.tCommit ∨ t.chan.frameSeq ≠ s.chan.frameSeq →
      i.opcode = .capPeriod) ∧
    (s.chan.valid = false → t.chan.valid = true → i.opcode = .capPeriod) ∧
    (s.chan.valid = true → t.chan.valid = false → i.opcode = .fsTick) ∧
    (t.ind.frameInd ≠ s.ind.frameInd → i.opcode = .capPeriod) ∧
    (s.ind.losInd = false → t.ind.losInd = true → i.opcode = .fsTick) ∧
    (s.ind.losInd = true → t.ind.losInd = false → i.opcode = .capPeriod) ∧
    (t.ind.loopInd ≠ s.ind.loopInd → i.opcode = .ctrlTick) ∧
    (t.seq.loopRun ≠ s.seq.loopRun → i.opcode = .loopStart) ∧
    (t.seq.mode ≠ s.seq.mode ∨ t.seq.gyroFallback ≠ s.seq.gyroFallback → i.opcode ∈ [.calSample, .ctrlTick]) ∧
    (t.seq.driveLeft ≠ s.seq.driveLeft ∨ t.seq.driveRight ≠ s.seq.driveRight → i.opcode = .ctrlTick) ∧
    (t.seq.weaponWidth ≠ s.seq.weaponWidth ∨ t.seq.weaponEn ≠ s.seq.weaponEn →
      i.opcode = .ctrlTick ∨ (i.opcode = .fsTick ∧ s.inp.faultPolicy = .cutWeapon)) ∧
    (t.fs.faultIn ≠ s.fs.faultIn → i.opcode = .fsTick) ∧
    (t.fs.faultLatch ≠ s.fs.faultLatch → i.opcode = .fsTick ∧ s.inp.faultPolicy = .cutWeapon) ∧
    (t.cal.calState ≠ s.cal.calState ∨ t.cal.calRem ≠ s.cal.calRem ∨ t.cal.calCnt ≠ s.cal.calCnt ∨
      t.cal.calSum ≠ s.cal.calSum → i.opcode ∈ [.calStart, .calSample]) ∧
    (t.cal.calN ≠ s.cal.calN → i.opcode = .calStart) ∧
    (t.cal.bias ≠ s.cal.bias → i.opcode = .calSample) ∧
    (t.inp ≠ s.inp ∨ t.loop ≠ s.loop → i.opcode = .regWrite) ∧
    (t.pid.zp ≠ s.pid.zp ∨ t.pid.dir ≠ s.pid.dir ∨ t.pid.omode ≠ s.pid.omode → i.opcode = .pidConfigure) ∧
    (t.pid.zi ≠ s.pid.zi ∨ t.pid.zd ≠ s.pid.zd ∨ t.pid.period ≠ s.pid.period →
      i.opcode ∈ [.pidConfigure, .pidSetPeriod]) ∧
    (t.pid.outMin ≠ s.pid.outMin ∨ t.pid.outMax ≠ s.pid.outMax → i.opcode ∈ [.pidConfigure, .pidSetLimits]) ∧
    (t.pid.setpoint ≠ s.pid.setpoint → i.opcode ∈ [.pidConfigure, .pidSetSetpoint, .ctrlTick]) ∧
    (t.pid.integral ≠ s.pid.integral ∨ t.pid.prevMeas ≠ s.pid.prevMeas ∨ t.pid.prevOut ≠ s.pid.prevOut ∨
      t.pid.runCount ≠ s.pid.runCount → i.opcode ∈ [.pidConfigure, .pidRun, .ctrlTick]) ∧
    (t.err.illegalOp = s.err.illegalOp) ∧
    (t.err.badReg ≠ s.err.badReg → i.opcode ∈ [.regRead, .regWrite]) ∧
    (t.err.mapDomain ≠ s.err.mapDomain → i.opcode ∈ [.map, .ctrlTick]) ∧
    t.env = s.env

/-- R281, and the inference R286: no frame clears an error bit, and one frame sets at most one. -/
def Obligations.ErrorBitsAreStickyAndSetOneAtATime : Prop :=
  ∀ (f : Frame) (s t : State), runFrame f s = .next t →
    (s.err.illegalOp = true → t.err.illegalOp = true) ∧ (s.err.badReg = true → t.err.badReg = true) ∧
    (s.err.mapDomain = true → t.err.mapDomain = true) ∧
    (t.err = s.err ∨ t.err = { s.err with illegalOp := true } ∨ t.err = { s.err with badReg := true } ∨
      t.err = { s.err with mapDomain := true })

/-- R88: the number of words each command emits; what was on the response port stays before them. -/
def Obligations.CommandsEmitTheirNumberOfWords : Prop :=
  ∀ (i : Instr) (s t : State), exec i s = .next t →
    ∃ ws : List Word, t.resp = s.resp ++ ws ∧
      ws.length = (if i.opcode ∈ [.map, .avg, .sign, .negabs, .regRead] then 1
        else if i.opcode = .pidRun then 2 else 0)
end

