-- ==== Sys2Proof/Laws/Arith.lean ====
section
/-! SUPPORT. Facts about the arithmetic primitives: what a clamp gives, and when a value survives being stored. -/

namespace Sys2Proof.Laws

open Sys2Proof.Machine

theorem clamp_eq_max_min {x lo hi : Int} (h : lo ≤ hi) : clamp x lo hi = max lo (min hi x) := by
  unfold clamp; split
  · omega
  · split <;> omega

theorem le_clamp {x lo hi : Int} (h : lo ≤ hi) : lo ≤ clamp x lo hi := by
  rw [clamp_eq_max_min h]; omega

theorem clamp_le {x lo hi : Int} (h : lo ≤ hi) : clamp x lo hi ≤ hi := by
  rw [clamp_eq_max_min h]; omega

theorem clamp_of_mem {x lo hi : Int} (h1 : lo ≤ x) (h2 : x ≤ hi) : clamp x lo hi = x := by
  unfold clamp; split
  · omega
  · split <;> omega

theorem clamp_mono {x y lo hi : Int} (h : lo ≤ hi) (hxy : x ≤ y) : clamp x lo hi ≤ clamp y lo hi := by
  rw [clamp_eq_max_min h, clamp_eq_max_min h]; omega

/-- Saturation to s64 as a max and a min. -/
theorem sat64_eq (x : Int) : sat 64 x = max (-2 ^ 63) (min (2 ^ 63 - 1) x) := clamp_eq_max_min (by decide)

/-- A stored s32 value reads back where it fits. -/
theorem toInt_pattern32 {x : Int} (h1 : -2 ^ 31 ≤ x) (h2 : x < 2 ^ 31) : (pattern 32 x).toInt = x := by
  unfold pattern; rw [BitVec.toInt_ofInt, Int.bmod_def]; omega

/-- A stored s64 value reads back where it fits. -/
theorem toInt_pattern64 {x : Int} (h1 : -2 ^ 63 ≤ x) (h2 : x < 2 ^ 63) : (pattern 64 x).toInt = x := by
  unfold pattern; rw [BitVec.toInt_ofInt, Int.bmod_def]; omega

/-- A stored s16 value reads back where it fits. -/
theorem toInt_pattern16 {x : Int} (h1 : -2 ^ 15 ≤ x) (h2 : x < 2 ^ 15) : (pattern 16 x).toInt = x := by
  unfold pattern; rw [BitVec.toInt_ofInt, Int.bmod_def]; omega

/-- A stored u32 value reads back where it fits. -/
theorem toNat_pattern32 {x : Int} (h1 : 0 ≤ x) (h2 : x < 2 ^ 32) : ((pattern 32 x).toNat : Int) = x := by
  unfold pattern; rw [BitVec.toNat_ofInt]; omega

/-- An element's own value stored back is the element. -/
theorem pattern_toInt {n : Nat} (x : BitVec n) : pattern n x.toInt = x := BitVec.ofInt_toInt

theorem fitU32_eq {x : Int} (h1 : 0 ≤ x) (h2 : x < 2 ^ 32) : fitU 32 x = some (pattern 32 x) := if_pos ⟨h1, h2⟩

theorem fitS64_eq {x : Int} (h1 : -2 ^ 63 ≤ x) (h2 : x < 2 ^ 63) : fitS 64 x = some (pattern 64 x) := if_pos ⟨h1, h2⟩

theorem fitS16_eq {x : Int} (h1 : -2 ^ 15 ≤ x) (h2 : x < 2 ^ 15) : fitS 16 x = some (pattern 16 x) := if_pos ⟨h1, h2⟩

/-- The range of an s64 element. -/
theorem toInt64_range (x : Dword) : -2 ^ 63 ≤ x.toInt ∧ x.toInt < 2 ^ 63 := by
  have := BitVec.two_mul_toInt_lt (x := x); have := BitVec.le_two_mul_toInt (x := x); omega

/-- The range of an s32 element. -/
theorem toInt32_range (x : Word) : -2 ^ 31 ≤ x.toInt ∧ x.toInt < 2 ^ 31 := by
  have := BitVec.two_mul_toInt_lt (x := x); have := BitVec.le_two_mul_toInt (x := x); omega

/-- The range of an s16 element. -/
theorem toInt16_range (x : Half) : -32768 ≤ x.toInt ∧ x.toInt ≤ 32767 := by
  have := BitVec.two_mul_toInt_lt (x := x); have := BitVec.le_two_mul_toInt (x := x); omega

/-- `avg` is the floor of half the sum. -/
theorem avg_eq (a b : Int) : avg a b = (a + b) / 2 := by
  unfold avg fdiv; exact Int.fdiv_eq_ediv_of_nonneg _ (by decide)

/-- The deadband test of R105 in terms of the absolute value, for a deadband in contract. -/
theorem deadbandAdjust_eq {c db : Int} (hdb : 0 ≤ db) :
    deadbandAdjust c db = if |c| < db then 0 else if c < 0 then c + db else c - db := by
  unfold deadbandAdjust negabs signOf
  rcases lt_trichotomy c 0 with h | h | h
  · rw [abs_of_neg h]; split_ifs <;> omega
  · subst h; simp only [abs_zero]; split_ifs <;> omega
  · rw [abs_of_pos h]; split_ifs <;> omega

/-- `absOf` is the absolute value. -/
theorem absOf_eq (x : Int) : absOf x = |x| := by
  unfold absOf; split
  · rw [abs_of_neg (by omega)]
  · rw [abs_of_nonneg (by omega)]

/-- A quotient rounded toward zero lies between the bounds of its exact value. -/
theorem tdiv_bounds {a b lo hi : Int} (hb : 0 < b) (hlo : lo ≤ 0) (hhi : 0 ≤ hi) (h1 : lo * b ≤ a) (h2 : a ≤ hi * b) :
    lo ≤ a.tdiv b ∧ a.tdiv b ≤ hi := by
  rcases Int.le_total 0 a with h | h
  · rw [Int.tdiv_eq_ediv_of_nonneg h]
    exact ⟨le_trans hlo (Int.ediv_nonneg h hb.le), Int.ediv_le_of_le_mul hb h2⟩
  · have hn : a.tdiv b = -((-a) / b) := by
      rw [← Int.tdiv_eq_ediv_of_nonneg (by omega), Int.neg_tdiv, neg_neg]
    have h3 : (-a) / b ≤ -lo := Int.ediv_le_of_le_mul hb (by rw [Int.neg_mul]; omega)
    have h4 : 0 ≤ (-a) / b := Int.ediv_nonneg (by omega) hb.le
    omega

/-- Division rounded toward zero is monotone in its dividend. -/
theorem tdiv_mono {a b d : Int} (hd : 0 < d) (h : a ≤ b) : a.tdiv d ≤ b.tdiv d := by
  rcases Int.le_total 0 a with ha | ha
  · rw [Int.tdiv_eq_ediv_of_nonneg ha, Int.tdiv_eq_ediv_of_nonneg (by omega)]
    exact Int.ediv_le_ediv hd h
  · rcases Int.le_total 0 b with hb | hb
    · have h1 := (tdiv_bounds (a := a) (lo := a) (hi := 0) hd ha le_rfl (by nlinarith) (by omega)).2
      rw [Int.tdiv_eq_ediv_of_nonneg hb]
      exact le_trans h1 (Int.ediv_nonneg hb hd.le)
    · have e : ∀ c : Int, c ≤ 0 → c.tdiv d = -((-c) / d) := fun c hc => by
        rw [← Int.tdiv_eq_ediv_of_nonneg (by omega), Int.neg_tdiv, neg_neg]
      rw [e a ha, e b hb]
      exact neg_le_neg (Int.ediv_le_ediv hd (by omega))

end Sys2Proof.Laws
end

