-- ==== Sys2Proof/Laws/PerInstr.lean ====
section
/-! SUPPORT. The family EncodeLegal: the frame a command encodes to keeps the four conditions of R86. -/

namespace Sys2Proof.Laws

/-- The encoded frame of i is legal and has 1 + L(OP) words (R80, R83, R86). -/
def EncodeLegal.Statement (i : Instr) : Prop :=
  (encode i).legal = true ∧ (encode i).operands.length = i.opcode.operandWords

/-- The four conditions from the fields of word 0, whose sum the address and the opcode make up. -/
theorem legal_of_word0 {w : Word} {ops : List Word} {op addr : Nat} (hw : w.toNat = addr * 2 ^ 8 + op)
    (ho : op < 2 ^ 8) (ha : addr < 2 ^ 8) (hz : addr = 0 ∨ op = 0x70 ∨ op = 0x71)
    (hr : Frame.operandTable.any (fun row => row.1 == op && row.2 == ops.length) = true) :
    (Frame.mk w ops).legal = true := by
  have e1 : (Frame.mk w ops).op = op := by simp only [Frame.op]; omega
  have e2 : (Frame.mk w ops).addr = addr := by simp only [Frame.addr]; omega
  have e3 : (Frame.mk w ops).rsvd = 0 := by simp only [Frame.rsvd]; omega
  have h1 : Frame.operandTable.any (fun row => row.1 == op) = true := by
    rw [List.any_eq_true] at hr ⊢
    obtain ⟨row, hm, hb⟩ := hr
    exact ⟨row, hm, (Bool.and_eq_true _ _ ▸ hb).1⟩
  simp only [Frame.legal, Frame.opAssigned, Frame.rsvdZero, Frame.addrAllowed, Frame.lengthRight, e1, e2, e3, hr, h1]
  rcases hz with h | h | h <;> simp [h]

/-- Word 0 of an encoded command as a number. -/
theorem word0Of_toNat (c : BitVec 8) (a : RegAddr) : (word0Of c a).toNat = a.toNat * 2 ^ 8 + c.toNat := by
  have h : (((0 : BitVec 16) ++ a) ++ c).toNat = a.toNat * 2 ^ 8 + c.toNat := by
    rw [BitVec.toNat_append, BitVec.toNat_append, ← Nat.shiftLeft_add_eq_or_of_lt c.isLt, Nat.shiftLeft_eq]
    simp
  exact h

theorem EncodeLegal.nop : EncodeLegal.Statement (.nop) :=
  ⟨legal_of_word0 (word0Of_toNat _ _) (BitVec.isLt _) (BitVec.isLt _) (.inl rfl) rfl, rfl⟩

theorem EncodeLegal.capWidth (w : Word) : EncodeLegal.Statement (.capWidth w) :=
  ⟨legal_of_word0 (word0Of_toNat _ _) (BitVec.isLt _) (BitVec.isLt _) (.inl rfl) rfl, rfl⟩

theorem EncodeLegal.capPeriod (p now : Word) : EncodeLegal.Statement (.capPeriod p now) :=
  ⟨legal_of_word0 (word0Of_toNat _ _) (BitVec.isLt _) (BitVec.isLt _) (.inl rfl) rfl, rfl⟩

theorem EncodeLegal.fsTick (now : Word) (fault : Bool) : EncodeLegal.Statement (.fsTick now fault) :=
  ⟨legal_of_word0 (word0Of_toNat _ _) (BitVec.isLt _) (BitVec.isLt _) (.inl rfl) rfl, rfl⟩

theorem EncodeLegal.map (inLow inHigh inValue outLow outHigh deadband : Word) : EncodeLegal.Statement (.map inLow inHigh inValue outLow outHigh deadband) :=
  ⟨legal_of_word0 (word0Of_toNat _ _) (BitVec.isLt _) (BitVec.isLt _) (.inl rfl) rfl, rfl⟩

theorem EncodeLegal.avg (a b : Word) : EncodeLegal.Statement (.avg a b) :=
  ⟨legal_of_word0 (word0Of_toNat _ _) (BitVec.isLt _) (BitVec.isLt _) (.inl rfl) rfl, rfl⟩

theorem EncodeLegal.sign (x : Word) : EncodeLegal.Statement (.sign x) :=
  ⟨legal_of_word0 (word0Of_toNat _ _) (BitVec.isLt _) (BitVec.isLt _) (.inl rfl) rfl, rfl⟩

theorem EncodeLegal.negabs (x : Word) : EncodeLegal.Statement (.negabs x) :=
  ⟨legal_of_word0 (word0Of_toNat _ _) (BitVec.isLt _) (BitVec.isLt _) (.inl rfl) rfl, rfl⟩

theorem EncodeLegal.pidConfigure (kp ki kd : Dword) (dir : Direction) (omode : OutputMode) (t : Word) (outMin outMax setPoint : Dword) : EncodeLegal.Statement (.pidConfigure kp ki kd dir omode t outMin outMax setPoint) :=
  ⟨legal_of_word0 (word0Of_toNat _ _) (BitVec.isLt _) (BitVec.isLt _) (.inl rfl) rfl, rfl⟩

theorem EncodeLegal.pidRun (meas : Dword) : EncodeLegal.Statement (.pidRun meas) :=
  ⟨legal_of_word0 (word0Of_toNat _ _) (BitVec.isLt _) (BitVec.isLt _) (.inl rfl) rfl, rfl⟩

theorem EncodeLegal.pidSetLimits (min max : Dword) : EncodeLegal.Statement (.pidSetLimits min max) :=
  ⟨legal_of_word0 (word0Of_toNat _ _) (BitVec.isLt _) (BitVec.isLt _) (.inl rfl) rfl, rfl⟩

theorem EncodeLegal.pidSetPeriod (t : Word) : EncodeLegal.Statement (.pidSetPeriod t) :=
  ⟨legal_of_word0 (word0Of_toNat _ _) (BitVec.isLt _) (BitVec.isLt _) (.inl rfl) rfl, rfl⟩

theorem EncodeLegal.pidSetSetpoint (sp : Dword) : EncodeLegal.Statement (.pidSetSetpoint sp) :=
  ⟨legal_of_word0 (word0Of_toNat _ _) (BitVec.isLt _) (BitVec.isLt _) (.inl rfl) rfl, rfl⟩

theorem EncodeLegal.calStart (warmup n : Word) : EncodeLegal.Statement (.calStart warmup n) :=
  ⟨legal_of_word0 (word0Of_toNat _ _) (BitVec.isLt _) (BitVec.isLt _) (.inl rfl) rfl, rfl⟩

theorem EncodeLegal.calSample (x y z : Half) (err : Bool) : EncodeLegal.Statement (.calSample x y z err) :=
  ⟨legal_of_word0 (word0Of_toNat _ _) (BitVec.isLt _) (BitVec.isLt _) (.inl rfl) rfl, rfl⟩

theorem EncodeLegal.loopStart : EncodeLegal.Statement (.loopStart) :=
  ⟨legal_of_word0 (word0Of_toNat _ _) (BitVec.isLt _) (BitVec.isLt _) (.inl rfl) rfl, rfl⟩

theorem EncodeLegal.ctrlTick (gx gy gz : Half) (gerr : Bool) : EncodeLegal.Statement (.ctrlTick gx gy gz gerr) :=
  ⟨legal_of_word0 (word0Of_toNat _ _) (BitVec.isLt _) (BitVec.isLt _) (.inl rfl) rfl, rfl⟩

theorem EncodeLegal.regRead (addr : RegAddr) : EncodeLegal.Statement (.regRead addr) :=
  ⟨legal_of_word0 (word0Of_toNat _ _) (BitVec.isLt _) (BitVec.isLt _) (.inr (.inl rfl)) rfl, rfl⟩

theorem EncodeLegal.regWrite (addr : RegAddr) (value : Word) : EncodeLegal.Statement (.regWrite addr value) :=
  ⟨legal_of_word0 (word0Of_toNat _ _) (BitVec.isLt _) (BitVec.isLt _) (.inr (.inr rfl)) rfl, rfl⟩

end Sys2Proof.Laws
end

