-- ==== Sys2Proof/Laws/Decode.lean ====
section
/-! SUPPORT. The pieces of the decoder: fields of word 0, operand words, and legality of a frame against decoding. -/

namespace Sys2Proof.Laws

/-- A 64-bit operand survives its two words. -/
@[simp] theorem dwordOf_words (d : Dword) : dwordOf (loWord d) (hiWord d) = d := by
  apply BitVec.eq_of_getLsbD_eq
  intro i hi
  unfold dwordOf loWord hiWord
  rw [BitVec.getLsbD_append]
  by_cases h : i < 32
  · simp [h]
  · have e : 32 + (i - 32) = i := by omega
    have h2 : i - 32 < 32 := by omega
    simp [h, e, h2]

/-- The words of a 64-bit operand made of two words are those words. -/
@[simp] theorem loWord_dwordOf (lo hi : Word) : loWord (dwordOf lo hi) = lo := by
  apply BitVec.eq_of_getLsbD_eq
  intro i h
  unfold dwordOf loWord
  simp only [BitVec.getLsbD_extractLsb', BitVec.getLsbD_append]
  simp [h]

@[simp] theorem hiWord_dwordOf (lo hi : Word) : hiWord (dwordOf lo hi) = hi := by
  apply BitVec.eq_of_getLsbD_eq
  intro i h
  unfold dwordOf hiWord
  simp only [BitVec.getLsbD_extractLsb', BitVec.getLsbD_append]
  simp [h]

/-- An s16 operand survives its word. -/
@[simp] theorem halfOf_wordOfHalf (h : Half) : halfOf (wordOfHalf h) = h := by
  apply BitVec.eq_of_getLsbD_eq
  intro i hi
  unfold halfOf wordOfHalf
  rw [BitVec.getLsbD_extractLsb', BitVec.getLsbD_signExtend]
  simp [hi]
  intro; omega

/-- A b1 operand survives its word. -/
@[simp] theorem bitOf_wordOfBit (b : Bool) : bitOf (wordOfBit b) = b := by cases b <;> rfl

/-- A pidflags operand survives its word. -/
@[simp] theorem dirOf_wordOfFlags (d : Direction) (m : OutputMode) : dirOf (wordOfFlags d m) = d := by
  cases d <;> cases m <;> rfl

@[simp] theorem omodeOf_wordOfFlags (d : Direction) (m : OutputMode) : omodeOf (wordOfFlags d m) = m := by
  cases d <;> cases m <;> rfl

/-- The fields of a word 0 that the encoder makes. -/
@[simp] theorem opField_word0Of (c : BitVec 8) (a : RegAddr) : opField (word0Of c a) = c := by
  apply BitVec.eq_of_toNat_eq
  have := word0Of_toNat c a
  have := a.isLt; have := c.isLt
  unfold opField
  rw [BitVec.extractLsb'_toNat]
  simp only [Nat.shiftRight_zero]
  omega

@[simp] theorem addrField_word0Of (c : BitVec 8) (a : RegAddr) : addrField (word0Of c a) = a := by
  apply BitVec.eq_of_toNat_eq
  have := word0Of_toNat c a
  have := a.isLt; have := c.isLt
  unfold addrField
  rw [BitVec.extractLsb'_toNat, Nat.shiftRight_eq_div_pow]
  omega

@[simp] theorem rsvdField_word0Of (c : BitVec 8) (a : RegAddr) : rsvdField (word0Of c a) = 0 := by
  apply BitVec.eq_of_toNat_eq
  have := word0Of_toNat c a
  have := a.isLt; have := c.isLt
  unfold rsvdField
  rw [BitVec.extractLsb'_toNat, Nat.shiftRight_eq_div_pow]
  simp
  omega

/-- An opcode is found by its code. -/
@[simp] theorem ofCode_code (o : Opcode) : Opcode.ofCode o.code = some o := by cases o <;> rfl

/-- A code found belongs to the opcode found. -/
theorem code_of_ofCode {c : BitVec 8} {o : Opcode} (h : Opcode.ofCode c = some o) : o.code = c := by
  unfold Opcode.ofCode at h
  simpa using List.find?_some h

/-- Decoding a frame whose word 0 the encoder made is assembling its operand words. -/
theorem decode_word0Of (o : Opcode) (a : RegAddr) (ws : List Word) (h : a = 0 ∨ o.usesAddr = true) :
    decode ⟨word0Of o.code a, ws⟩ = (match assemble o a ws with
      | some i => .ok i
      | none => .error .wrongLength) := by
  unfold decode
  have hn : ¬ (a ≠ 0 ∧ o.usesAddr = false) := by
    rintro ⟨h1, h2⟩; rcases h with h | h <;> simp_all
  simp only [opField_word0Of, ofCode_code, rsvdField_word0Of, addrField_word0Of]
  rw [if_neg (by simp), if_neg hn]
  all_goals cases assemble o a ws <;> rfl

/-- The fields of word 0 as the numbers that legality reads. -/
theorem toNat_fields (f : Frame) :
    (opField f.word0).toNat = f.op ∧ (addrField f.word0).toNat = f.addr ∧ (rsvdField f.word0).toNat = f.rsvd := by
  unfold opField addrField rsvdField Frame.op Frame.addr Frame.rsvd
  simp only [BitVec.extractLsb'_toNat, Nat.shiftRight_eq_div_pow]
  have := f.word0.isLt
  refine ⟨by simp, trivial, ?_⟩
  rw [Nat.mod_eq_of_lt]
  omega

/-- The number of operand words decides whether a command can be assembled. -/
theorem assemble_isSome (o : Opcode) (a : RegAddr) (ws : List Word) :
    (assemble o a ws).isSome = decide (ws.length = o.operandWords) := by
  cases o <;> simp only [assemble, Opcode.operandWords] <;> split <;>
    first
    | rfl
    | (rename_i h
       rcases ws with _ | ⟨w1, _ | ⟨w2, _ | ⟨w3, _ | ⟨w4, _ | ⟨w5, _ | ⟨w6, _ | ⟨w7, ws⟩⟩⟩⟩⟩⟩⟩ <;>
         first
         | (simp; done)
         | (exact absurd rfl (h _))
         | (exact absurd rfl (h _ _))
         | (exact absurd rfl (h _ _ _ _))
         | (exact absurd rfl (h _ _ _ _ _ _))
         | (exact absurd rfl h)
         | (rcases ws with _ | ⟨w8, _ | ⟨w9, _ | ⟨w10, _ | ⟨w11, _ | ⟨w12, _ | ⟨w13, _ | ⟨w14, _ | ⟨w15, ws⟩⟩⟩⟩⟩⟩⟩⟩ <;>
              first
              | (simp; done)
              | (exact absurd rfl (h _ _ _ _ _ _ _ _ _ _ _ _ _ _))))

end Sys2Proof.Laws
end

