-- ==== Sys2Proof/Laws/State.lean ====
section
/-! SUPPORT. One lemma per field per named update of the state, true by rfl, so that no proof unfolds an update. -/

namespace Sys2Proof.Laws

open Sys2Proof.Machine

variable (s : State)

@[simp] theorem emit_dec (ws : List Word) : (s.emit ws).dec = s.dec := rfl
@[simp] theorem emit_chan (ws : List Word) : (s.emit ws).chan = s.chan := rfl
@[simp] theorem emit_ind (ws : List Word) : (s.emit ws).ind = s.ind := rfl
@[simp] theorem emit_seq (ws : List Word) : (s.emit ws).seq = s.seq := rfl
@[simp] theorem emit_fs (ws : List Word) : (s.emit ws).fs = s.fs := rfl
@[simp] theorem emit_cal (ws : List Word) : (s.emit ws).cal = s.cal := rfl
@[simp] theorem emit_inp (ws : List Word) : (s.emit ws).inp = s.inp := rfl
@[simp] theorem emit_loop (ws : List Word) : (s.emit ws).loop = s.loop := rfl
@[simp] theorem emit_pid (ws : List Word) : (s.emit ws).pid = s.pid := rfl
@[simp] theorem emit_err (ws : List Word) : (s.emit ws).err = s.err := rfl
@[simp] theorem emit_resp (ws : List Word) : (s.emit ws).resp = s.resp ++ ws := rfl
@[simp] theorem emit_env (ws : List Word) : (s.emit ws).env = s.env := rfl
@[simp] theorem emit_free (ws : List Word) : (s.emit ws).free = s.free := rfl

@[simp] theorem neutral_dec : (s.neutral).dec = s.dec := rfl
@[simp] theorem neutral_chan : (s.neutral).chan = s.chan := rfl
@[simp] theorem neutral_ind : (s.neutral).ind = s.ind := rfl
@[simp] theorem neutral_seq : (s.neutral).seq = { s.seq with driveLeft := 0, driveRight := 0, weaponWidth := 0, weaponEn := false } := rfl
@[simp] theorem neutral_fs : (s.neutral).fs = s.fs := rfl
@[simp] theorem neutral_cal : (s.neutral).cal = s.cal := rfl
@[simp] theorem neutral_inp : (s.neutral).inp = s.inp := rfl
@[simp] theorem neutral_loop : (s.neutral).loop = s.loop := rfl
@[simp] theorem neutral_pid : (s.neutral).pid = s.pid := rfl
@[simp] theorem neutral_err : (s.neutral).err = s.err := rfl
@[simp] theorem neutral_resp : (s.neutral).resp = s.resp := rfl
@[simp] theorem neutral_env : (s.neutral).env = s.env := rfl
@[simp] theorem neutral_free : (s.neutral).free = s.free := rfl

@[simp] theorem gyroFall_dec : (s.gyroFall).dec = s.dec := rfl
@[simp] theorem gyroFall_chan : (s.gyroFall).chan = s.chan := rfl
@[simp] theorem gyroFall_ind : (s.gyroFall).ind = s.ind := rfl
@[simp] theorem gyroFall_seq : (s.gyroFall).seq = { s.seq with mode := .manual, gyroFallback := true } := rfl
@[simp] theorem gyroFall_fs : (s.gyroFall).fs = s.fs := rfl
@[simp] theorem gyroFall_cal : (s.gyroFall).cal = s.cal := rfl
@[simp] theorem gyroFall_inp : (s.gyroFall).inp = s.inp := rfl
@[simp] theorem gyroFall_loop : (s.gyroFall).loop = s.loop := rfl
@[simp] theorem gyroFall_pid : (s.gyroFall).pid = s.pid := rfl
@[simp] theorem gyroFall_err : (s.gyroFall).err = s.err := rfl
@[simp] theorem gyroFall_resp : (s.gyroFall).resp = s.resp := rfl
@[simp] theorem gyroFall_env : (s.gyroFall).env = s.env := rfl
@[simp] theorem gyroFall_free : (s.gyroFall).free = s.free := rfl

@[simp] theorem weaponIdle_dec : (s.weaponIdle).dec = s.dec := rfl
@[simp] theorem weaponIdle_chan : (s.weaponIdle).chan = s.chan := rfl
@[simp] theorem weaponIdle_ind : (s.weaponIdle).ind = s.ind := rfl
@[simp] theorem weaponIdle_seq : (s.weaponIdle).seq = { s.seq with weaponWidth := 0, weaponEn := false } := rfl
@[simp] theorem weaponIdle_fs : (s.weaponIdle).fs = s.fs := rfl
@[simp] theorem weaponIdle_cal : (s.weaponIdle).cal = s.cal := rfl
@[simp] theorem weaponIdle_inp : (s.weaponIdle).inp = s.inp := rfl
@[simp] theorem weaponIdle_loop : (s.weaponIdle).loop = s.loop := rfl
@[simp] theorem weaponIdle_pid : (s.weaponIdle).pid = s.pid := rfl
@[simp] theorem weaponIdle_err : (s.weaponIdle).err = s.err := rfl
@[simp] theorem weaponIdle_resp : (s.weaponIdle).resp = s.resp := rfl
@[simp] theorem weaponIdle_env : (s.weaponIdle).env = s.env := rfl
@[simp] theorem weaponIdle_free : (s.weaponIdle).free = s.free := rfl

@[simp] theorem drive_dec (l r w : Word) (e : Bool) : (s.drive l r w e).dec = s.dec := rfl
@[simp] theorem drive_chan (l r w : Word) (e : Bool) : (s.drive l r w e).chan = s.chan := rfl
@[simp] theorem drive_ind (l r w : Word) (e : Bool) : (s.drive l r w e).ind = s.ind := rfl
@[simp] theorem drive_seq (l r w : Word) (e : Bool) : (s.drive l r w e).seq = { s.seq with driveLeft := l, driveRight := r, weaponWidth := w, weaponEn := e } := rfl
@[simp] theorem drive_fs (l r w : Word) (e : Bool) : (s.drive l r w e).fs = s.fs := rfl
@[simp] theorem drive_cal (l r w : Word) (e : Bool) : (s.drive l r w e).cal = s.cal := rfl
@[simp] theorem drive_inp (l r w : Word) (e : Bool) : (s.drive l r w e).inp = s.inp := rfl
@[simp] theorem drive_loop (l r w : Word) (e : Bool) : (s.drive l r w e).loop = s.loop := rfl
@[simp] theorem drive_pid (l r w : Word) (e : Bool) : (s.drive l r w e).pid = s.pid := rfl
@[simp] theorem drive_err (l r w : Word) (e : Bool) : (s.drive l r w e).err = s.err := rfl
@[simp] theorem drive_resp (l r w : Word) (e : Bool) : (s.drive l r w e).resp = s.resp := rfl
@[simp] theorem drive_env (l r w : Word) (e : Bool) : (s.drive l r w e).env = s.env := rfl
@[simp] theorem drive_free (l r w : Word) (e : Bool) : (s.drive l r w e).free = s.free := rfl

@[simp] theorem commit_dec (now : Word) : (s.commit now).dec = { s.dec with index := 0, phase := .seeking } := rfl
@[simp] theorem commit_chan (now : Word) : (s.commit now).chan = { ch := s.dec.buf, valid := true, tCommit := now, frameSeq := s.chan.frameSeq + 1 } := rfl
@[simp] theorem commit_ind (now : Word) : (s.commit now).ind = { s.ind with frameInd := !s.ind.frameInd, losInd := false } := rfl
@[simp] theorem commit_seq (now : Word) : (s.commit now).seq = s.seq := rfl
@[simp] theorem commit_fs (now : Word) : (s.commit now).fs = s.fs := rfl
@[simp] theorem commit_cal (now : Word) : (s.commit now).cal = s.cal := rfl
@[simp] theorem commit_inp (now : Word) : (s.commit now).inp = s.inp := rfl
@[simp] theorem commit_loop (now : Word) : (s.commit now).loop = s.loop := rfl
@[simp] theorem commit_pid (now : Word) : (s.commit now).pid = s.pid := rfl
@[simp] theorem commit_err (now : Word) : (s.commit now).err = s.err := rfl
@[simp] theorem commit_resp (now : Word) : (s.commit now).resp = s.resp := rfl
@[simp] theorem commit_env (now : Word) : (s.commit now).env = s.env := rfl
@[simp] theorem commit_free (now : Word) : (s.commit now).free = s.free := rfl

@[simp] theorem calFail_dec : (s.calFail).dec = s.dec := rfl
@[simp] theorem calFail_chan : (s.calFail).chan = s.chan := rfl
@[simp] theorem calFail_ind : (s.calFail).ind = s.ind := rfl
@[simp] theorem calFail_seq : (s.calFail).seq = { s.seq with mode := .manual, gyroFallback := true } := rfl
@[simp] theorem calFail_fs : (s.calFail).fs = s.fs := rfl
@[simp] theorem calFail_cal : (s.calFail).cal = { s.cal with calState := .failed } := rfl
@[simp] theorem calFail_inp : (s.calFail).inp = s.inp := rfl
@[simp] theorem calFail_loop : (s.calFail).loop = s.loop := rfl
@[simp] theorem calFail_pid : (s.calFail).pid = s.pid := rfl
@[simp] theorem calFail_err : (s.calFail).err = s.err := rfl
@[simp] theorem calFail_resp : (s.calFail).resp = s.resp := rfl
@[simp] theorem calFail_env : (s.calFail).env = s.env := rfl
@[simp] theorem calFail_free : (s.calFail).free = s.free := rfl

@[simp] theorem toggleLoop_dec : (s.toggleLoop).dec = s.dec := rfl
@[simp] theorem toggleLoop_chan : (s.toggleLoop).chan = s.chan := rfl
@[simp] theorem toggleLoop_ind : (s.toggleLoop).ind = { s.ind with loopInd := !s.ind.loopInd } := rfl
@[simp] theorem toggleLoop_seq : (s.toggleLoop).seq = s.seq := rfl
@[simp] theorem toggleLoop_fs : (s.toggleLoop).fs = s.fs := rfl
@[simp] theorem toggleLoop_cal : (s.toggleLoop).cal = s.cal := rfl
@[simp] theorem toggleLoop_inp : (s.toggleLoop).inp = s.inp := rfl
@[simp] theorem toggleLoop_loop : (s.toggleLoop).loop = s.loop := rfl
@[simp] theorem toggleLoop_pid : (s.toggleLoop).pid = s.pid := rfl
@[simp] theorem toggleLoop_err : (s.toggleLoop).err = s.err := rfl
@[simp] theorem toggleLoop_resp : (s.toggleLoop).resp = s.resp := rfl
@[simp] theorem toggleLoop_env : (s.toggleLoop).env = s.env := rfl
@[simp] theorem toggleLoop_free : (s.toggleLoop).free = s.free := rfl

@[simp] theorem setSchedule_dec (l : List Event) : (s.setSchedule l).dec = s.dec := rfl
@[simp] theorem setSchedule_chan (l : List Event) : (s.setSchedule l).chan = s.chan := rfl
@[simp] theorem setSchedule_ind (l : List Event) : (s.setSchedule l).ind = s.ind := rfl
@[simp] theorem setSchedule_seq (l : List Event) : (s.setSchedule l).seq = s.seq := rfl
@[simp] theorem setSchedule_fs (l : List Event) : (s.setSchedule l).fs = s.fs := rfl
@[simp] theorem setSchedule_cal (l : List Event) : (s.setSchedule l).cal = s.cal := rfl
@[simp] theorem setSchedule_inp (l : List Event) : (s.setSchedule l).inp = s.inp := rfl
@[simp] theorem setSchedule_loop (l : List Event) : (s.setSchedule l).loop = s.loop := rfl
@[simp] theorem setSchedule_pid (l : List Event) : (s.setSchedule l).pid = s.pid := rfl
@[simp] theorem setSchedule_err (l : List Event) : (s.setSchedule l).err = s.err := rfl
@[simp] theorem setSchedule_resp (l : List Event) : (s.setSchedule l).resp = s.resp := rfl
@[simp] theorem setSchedule_env (l : List Event) : (s.setSchedule l).env = { s.env with schedule := l } := rfl
@[simp] theorem setSchedule_free (l : List Event) : (s.setSchedule l).free = s.free := rfl

@[simp] theorem setStream_dec (a : Agent) (l : List Frame) : (s.setStream a l).dec = s.dec := rfl
@[simp] theorem setStream_chan (a : Agent) (l : List Frame) : (s.setStream a l).chan = s.chan := rfl
@[simp] theorem setStream_ind (a : Agent) (l : List Frame) : (s.setStream a l).ind = s.ind := rfl
@[simp] theorem setStream_seq (a : Agent) (l : List Frame) : (s.setStream a l).seq = s.seq := rfl
@[simp] theorem setStream_fs (a : Agent) (l : List Frame) : (s.setStream a l).fs = s.fs := rfl
@[simp] theorem setStream_cal (a : Agent) (l : List Frame) : (s.setStream a l).cal = s.cal := rfl
@[simp] theorem setStream_inp (a : Agent) (l : List Frame) : (s.setStream a l).inp = s.inp := rfl
@[simp] theorem setStream_loop (a : Agent) (l : List Frame) : (s.setStream a l).loop = s.loop := rfl
@[simp] theorem setStream_pid (a : Agent) (l : List Frame) : (s.setStream a l).pid = s.pid := rfl
@[simp] theorem setStream_err (a : Agent) (l : List Frame) : (s.setStream a l).err = s.err := rfl
@[simp] theorem setStream_resp (a : Agent) (l : List Frame) : (s.setStream a l).resp = s.resp := rfl
@[simp] theorem setStream_env (a : Agent) (l : List Frame) : (s.setStream a l).env = { s.env with streams := s.env.streams.put a l } := rfl
@[simp] theorem setStream_free (a : Agent) (l : List Frame) : (s.setStream a l).free = s.free := rfl

@[simp] theorem takeResponse_dec : (s.takeResponse).dec = s.dec := rfl
@[simp] theorem takeResponse_chan : (s.takeResponse).chan = s.chan := rfl
@[simp] theorem takeResponse_ind : (s.takeResponse).ind = s.ind := rfl
@[simp] theorem takeResponse_seq : (s.takeResponse).seq = s.seq := rfl
@[simp] theorem takeResponse_fs : (s.takeResponse).fs = s.fs := rfl
@[simp] theorem takeResponse_cal : (s.takeResponse).cal = s.cal := rfl
@[simp] theorem takeResponse_inp : (s.takeResponse).inp = s.inp := rfl
@[simp] theorem takeResponse_loop : (s.takeResponse).loop = s.loop := rfl
@[simp] theorem takeResponse_pid : (s.takeResponse).pid = s.pid := rfl
@[simp] theorem takeResponse_err : (s.takeResponse).err = s.err := rfl
@[simp] theorem takeResponse_resp : (s.takeResponse).resp = s.resp.tail := rfl
@[simp] theorem takeResponse_env : (s.takeResponse).env = s.env := rfl
@[simp] theorem takeResponse_free : (s.takeResponse).free = s.free := rfl

@[simp] theorem emitFree_dec : (s.emitFree).dec = s.dec := rfl
@[simp] theorem emitFree_chan : (s.emitFree).chan = s.chan := rfl
@[simp] theorem emitFree_ind : (s.emitFree).ind = s.ind := rfl
@[simp] theorem emitFree_seq : (s.emitFree).seq = s.seq := rfl
@[simp] theorem emitFree_fs : (s.emitFree).fs = s.fs := rfl
@[simp] theorem emitFree_cal : (s.emitFree).cal = s.cal := rfl
@[simp] theorem emitFree_inp : (s.emitFree).inp = s.inp := rfl
@[simp] theorem emitFree_loop : (s.emitFree).loop = s.loop := rfl
@[simp] theorem emitFree_pid : (s.emitFree).pid = s.pid := rfl
@[simp] theorem emitFree_err : (s.emitFree).err = s.err := rfl
@[simp] theorem emitFree_resp : (s.emitFree).resp = s.resp ++ [Config.freeWord s.free] := rfl
@[simp] theorem emitFree_env : (s.emitFree).env = s.env := rfl
@[simp] theorem emitFree_free : (s.emitFree).free = s.free + 1 := rfl

@[simp] theorem raise_dec (e : ErrorBit) : (s.raise e).dec = s.dec := by cases e <;> rfl
@[simp] theorem raise_chan (e : ErrorBit) : (s.raise e).chan = s.chan := by cases e <;> rfl
@[simp] theorem raise_ind (e : ErrorBit) : (s.raise e).ind = s.ind := by cases e <;> rfl
@[simp] theorem raise_seq (e : ErrorBit) : (s.raise e).seq = s.seq := by cases e <;> rfl
@[simp] theorem raise_fs (e : ErrorBit) : (s.raise e).fs = s.fs := by cases e <;> rfl
@[simp] theorem raise_cal (e : ErrorBit) : (s.raise e).cal = s.cal := by cases e <;> rfl
@[simp] theorem raise_inp (e : ErrorBit) : (s.raise e).inp = s.inp := by cases e <;> rfl
@[simp] theorem raise_loop (e : ErrorBit) : (s.raise e).loop = s.loop := by cases e <;> rfl
@[simp] theorem raise_pid (e : ErrorBit) : (s.raise e).pid = s.pid := by cases e <;> rfl
@[simp] theorem raise_resp (e : ErrorBit) : (s.raise e).resp = s.resp := by cases e <;> rfl
@[simp] theorem raise_env (e : ErrorBit) : (s.raise e).env = s.env := by cases e <;> rfl
@[simp] theorem raise_free (e : ErrorBit) : (s.raise e).free = s.free := by cases e <;> rfl
@[simp] theorem raise_illegalOp_err : (s.raise .illegalOp).err = { s.err with illegalOp := true } := rfl
@[simp] theorem raise_badReg_err : (s.raise .badReg).err = { s.err with badReg := true } := rfl
@[simp] theorem raise_mapDomain_err : (s.raise .mapDomain).err = { s.err with mapDomain := true } := rfl

@[simp] theorem contractViolation_dec (m : ControlMode) : (s.contractViolation m).dec = s.dec := rfl
@[simp] theorem contractViolation_chan (m : ControlMode) : (s.contractViolation m).chan = s.chan := rfl
@[simp] theorem contractViolation_ind (m : ControlMode) : (s.contractViolation m).ind = s.ind := rfl
@[simp] theorem contractViolation_fs (m : ControlMode) : (s.contractViolation m).fs = s.fs := rfl
@[simp] theorem contractViolation_cal (m : ControlMode) : (s.contractViolation m).cal = s.cal := rfl
@[simp] theorem contractViolation_inp (m : ControlMode) : (s.contractViolation m).inp = s.inp := rfl
@[simp] theorem contractViolation_loop (m : ControlMode) : (s.contractViolation m).loop = s.loop := rfl
@[simp] theorem contractViolation_resp (m : ControlMode) : (s.contractViolation m).resp = s.resp := rfl
@[simp] theorem contractViolation_env (m : ControlMode) : (s.contractViolation m).env = s.env := rfl
@[simp] theorem contractViolation_err (m : ControlMode) :
    (s.contractViolation m).err = { s.err with mapDomain := true } := rfl
@[simp] theorem contractViolation_free (m : ControlMode) : (s.contractViolation m).free = s.free + 4 := rfl
@[simp] theorem contractViolation_pid_manual : (s.contractViolation .manual).pid = s.pid := rfl
@[simp] theorem contractViolation_pid_gyro : (s.contractViolation .gyroStabilized).pid = s.pid.scramble s.free := rfl
@[simp] theorem contractViolation_loopRun (m : ControlMode) : (s.contractViolation m).seq.loopRun = s.seq.loopRun := rfl
@[simp] theorem contractViolation_mode (m : ControlMode) : (s.contractViolation m).seq.mode = s.seq.mode := rfl
@[simp] theorem contractViolation_gyroFallback (m : ControlMode) :
    (s.contractViolation m).seq.gyroFallback = s.seq.gyroFallback := rfl

/-- The stream just put is the one got. -/
@[simp] theorem streams_get_put (t : Streams) (a : Agent) (l : List Frame) : (t.put a l).get a = l := by cases a <;> rfl

/-- Putting a stream twice keeps the later one. -/
@[simp] theorem streams_put_put (t : Streams) (a : Agent) (l m : List Frame) : (t.put a l).put a m = t.put a m := by
  cases a <;> rfl

/-- Putting back the stream that is there changes nothing. -/
@[simp] theorem streams_put_get (t : Streams) (a : Agent) : t.put a (t.get a) = t := by cases a <;> rfl

/-- Replacing the events twice keeps the later ones. -/
@[simp] theorem setSchedule_setSchedule (l m : List Event) : (s.setSchedule l).setSchedule m = s.setSchedule m := rfl

end Sys2Proof.Laws
end

