-- ==== Sys2Proof/Laws/Ops.lean ====
section
/-! SUPPORT. What each shared operation can do, said once: the callers' proofs cite these instead of unfolding. -/

namespace Sys2Proof.Laws

open Sys2Proof.Machine

/-- The contract test of `mapRange`, as inequalities. -/
theorem mapContract_iff {iL iH oL oH db : Int} :
    mapContract iL iH oL oH db = true ↔ 0 ≤ db ∧ iL + 2 * db < iH ∧ oL ≤ oH := by
  simp [mapContract]; omega

/-- `mapRange` answers exactly in contract, with `mapValue`. -/
theorem mapRange_eq_some_iff {iL iH v oL oH db r : Int} :
    mapRange iL iH v oL oH db = some r ↔ mapContract iL iH oL oH db = true ∧ mapValue iL iH v oL oH db = r := by
  unfold mapRange; split <;> simp_all

/-- A mapped value lies in its output range. -/
theorem mapValue_mem {iL iH v oL oH db : Int} (h : oL ≤ oH) :
    oL ≤ mapValue iL iH v oL oH db ∧ mapValue iL iH v oL oH db ≤ oH := ⟨le_clamp h, clamp_le h⟩

/-- `raise` sets one error bit and changes nothing else. -/
theorem raise_frame (s : State) (e : ErrorBit) : { s.raise e with err := s.err } = s := by cases e <;> rfl

/-- A bit that `raise` finds set stays set. -/
theorem raise_keeps (s : State) (e : ErrorBit) :
    (s.err.illegalOp = true → (s.raise e).err.illegalOp = true) ∧
    (s.err.badReg = true → (s.raise e).err.badReg = true) ∧
    (s.err.mapDomain = true → (s.raise e).err.mapDomain = true) := by
  cases e <;> simp [State.raise]

/-- A violating tick changes only the outputs, the error bits, the PID and the index of the free values. -/
theorem contractViolation_frame (s : State) (m : ControlMode) :
    ∃ l r w e p, s.contractViolation m =
      { s with err := { s.err with mapDomain := true }
               seq := { s.seq with driveLeft := l, driveRight := r, weaponWidth := w, weaponEn := e }
               pid := p, free := s.free + 4 } := ⟨_, _, _, _, _, rfl⟩

/-- A row found in the address map is in it and has the address asked for. -/
theorem regAt_some {a : RegAddr} {row : RegRow} (h : regAt a = some row) : row ∈ regMap ∧ row.addr = a := by
  unfold regAt at h
  exact ⟨List.mem_of_find?_eq_some h, by simpa using List.find?_some h⟩

/-- A checked update that answers has stored its value. -/
theorem checked_next {r : Option State} {t : State} (h : checked r = .next t) : r = some t := by
  cases r with
  | none => simp [checked] at h
  | some u => simpa [checked] using h

/-- The limits in order keep a PID value within them. -/
theorem limit_mem {p : PidState} (h : p.outMin.toInt ≤ p.outMax.toInt) (x : Int) :
    p.outMin.toInt ≤ p.limit x ∧ p.limit x ≤ p.outMax.toInt := ⟨le_clamp h, clamp_le h⟩

/-- `satinc` counts up and stops at the largest value. -/
theorem satinc32_toNat (x : Word) : (satinc 32 x).toNat = min (2 ^ 32 - 1) (x.toNat + 1) := by
  unfold satinc
  have := x.isLt
  split
  · rw [BitVec.toNat_add]; simp; omega
  · omega

/-- `satinc` never answers a smaller value. -/
theorem le_satinc32 (x : Word) : x.toNat ≤ (satinc 32 x).toNat := by
  rw [satinc32_toNat]; have := x.isLt; omega

/-- What a CAP_PERIOD leaves in the PulseAccumulator: NEG_WIDTH always, and while INDEX is 1 or 3 there is a slot. -/
theorem onPeriod_isSome {d : PulseAccumulator} (cfg : InputConfig) (p : Word)
    (h : d.phase = .accumulating → d.index = 1 ∨ d.index = 3) : (d.onPeriod cfg p).isSome = true := by
  unfold PulseAccumulator.onPeriod
  split
  · rfl
  · cases hp : d.phase with
    | seeking => rfl
    | accumulating =>
      dsimp only
      split
      · rcases h hp with hi | hi <;> simp [PulseAccumulator.append, storeSlot, hi]
      · rfl

/-- CAP_PERIOD never changes NEG_WIDTH. -/
theorem onPeriod_negWidth {d e : PulseAccumulator} {cfg : InputConfig} {p : Word}
    (h : d.onPeriod cfg p = some e) : e.negWidth = d.negWidth := by
  unfold PulseAccumulator.onPeriod at h
  dsimp only at h
  split at h
  · cases h; unfold PulseAccumulator.sync; split <;> rfl
  · split at h
    · cases h; rfl
    · split at h
      · simp only [PulseAccumulator.append, storeSlot] at h
        split at h
        · split at h
          · simp at h; rw [← h]
          · simp at h
        · simp at h
      · cases h; rfl

end Sys2Proof.Laws
end

