-- ==== Sys2Proof/Laws/Meaning.lean ====
section
/-! SUPPORT. What each meaning with several outcomes can do, said once, for every state: an inversion lemma per meaning.
The callers cite these instead of unfolding a meaning. -/

namespace Sys2Proof.Laws

open Sys2Proof.Machine

/-- The contract test of a tick, as an inequality (R236). -/
theorem contractHolds_iff (c : LoopConfig) :
    c.contractHolds = true ↔ c.inLow.toInt + 2 * (c.chDeadband.toNat : Int) < c.inHigh.toInt := by
  simp [LoopConfig.contractHolds]

/-- A running tick is a contract violation: valid channels, broken maps, and no neutral fallback (R236). -/
abbrev tickViolates (s : State) (gerr : Bool) : Prop :=
  s.chan.valid = true ∧ s.loop.contractHolds = false ∧
    ¬ (s.seq.mode = .gyroStabilized ∧ gerr = true ∧ s.inp.gyroErrPolicy = .neutralThisTick)

/-- What a tick can leave: nothing changed before LOOP_START; else LOOP_IND inverted, the four outputs, the gyro fallback,
the PID elements that a run changes, and, only where the tick is a contract violation, ERR_MAP_DOMAIN with the index of
the free values. -/
theorem execCtrlTick_cases {s t : State} {gx gy gz : Half} {gerr : Bool} (h : execCtrlTick gx gy gz gerr s = .next t) :
    (s.seq.loopRun = false ∧ t = s) ∨
    (s.seq.loopRun = true ∧ ∃ (m : ControlMode) (g : Bool) (l r w : Word) (e : Bool) (p : PidState) (md : Bool) (k : Nat),
      t = { s with
        ind := { s.ind with loopInd := !s.ind.loopInd }
        seq := { s.seq with mode := m, gyroFallback := g, driveLeft := l, driveRight := r, weaponWidth := w, weaponEn := e }
        pid := p
        err := { s.err with mapDomain := md }
        free := k } ∧
      ((m = s.seq.mode ∧ g = s.seq.gyroFallback) ∨
        (s.seq.mode = .gyroStabilized ∧ m = .manual ∧ g = true ∧ gerr = true ∧ s.chan.valid = true)) ∧
      ((md = s.err.mapDomain ∧ k = s.free ∧ (s.fs.faultLatch = true → w = 0 ∧ e = false)) ∨
        (md = true ∧ tickViolates s gerr)) ∧
      (p.outMin = s.pid.outMin ∧ p.outMax = s.pid.outMax ∧ p.period = s.pid.period ∧ p.zp = s.pid.zp ∧ p.zi = s.pid.zi ∧
        p.zd = s.pid.zd ∧ p.dir = s.pid.dir ∧ p.omode = s.pid.omode) ∧
      (p.runCount = s.pid.runCount ∨ p.runCount = satinc 32 s.pid.runCount ∨
        (tickViolates s gerr ∧ s.seq.mode = .gyroStabilized ∧ gerr = false))) := by
  unfold execCtrlTick at h
  split at h
  · rename_i hl
    right; refine ⟨hl, ?_⟩
    split at h
    · rename_i hv
      simp only [Host.Outcome.next.injEq] at h; subst h
      unfold State.validTick
      split
      · rename_i hg
        rw [State.gyroError, Bool.and_eq_true] at hg
        have hm : s.seq.mode = .gyroStabilized := of_decide_eq_true hg.1
        cases hp : s.toggleLoop.inp.gyroErrPolicy with
        | neutralThisTick =>
          refine ⟨.manual, true, 0, 0, 0, false, s.pid, s.err.mapDomain, s.free, rfl, .inr ⟨hm, rfl, rfl, hg.2, hv⟩, .inl ⟨rfl, rfl, by simp⟩, by simp, by simp⟩
        | manualThisTick =>
          simp only
          unfold State.mix
          split
          · simp only [gyroFall_seq]
            refine ⟨.manual, true, _, _, _, _, s.pid, s.err.mapDomain, s.free, rfl, .inr ⟨hm, rfl, rfl, hg.2, hv⟩, .inl ⟨rfl, rfl, ?_⟩, by simp, by simp⟩
            intro hf
            simp [hf]
          · rename_i hc
            refine ⟨.manual, true, _, _, _, _, s.pid, true, _, rfl, .inr ⟨hm, rfl, rfl, hg.2, hv⟩, .inr ⟨rfl, hv, by simpa using hc, ?_⟩, by simp, by simp⟩
            intro hn
            exact absurd (hp.symm.trans hn.2.2) (by simp)
      · rename_i hg
        have hne : ¬ (s.seq.mode = .gyroStabilized ∧ gerr = true) := fun hn => hg (by
          rw [State.gyroError, Bool.and_eq_true]; exact ⟨decide_eq_true hn.1, hn.2⟩)
        unfold State.mix
        split
        · cases hm : s.toggleLoop.seq.mode with
          | manual =>
            simp only
            refine ⟨s.seq.mode, s.seq.gyroFallback, _, _, _, _, s.pid, s.err.mapDomain, s.free, rfl, .inl ⟨rfl, rfl⟩, .inl ⟨rfl, rfl, ?_⟩, by simp, by simp⟩
            intro hf
            simp [hf]
          | gyroStabilized =>
            simp only
            refine ⟨s.seq.mode, s.seq.gyroFallback, _, _, _, _, _, s.err.mapDomain, s.free, rfl, .inl ⟨rfl, rfl⟩, .inl ⟨rfl, rfl, ?_⟩, ⟨rfl, rfl, rfl, rfl, rfl, rfl, rfl, rfl⟩, .inr (.inl rfl)⟩
            intro hf
            simp [hf]
        · rename_i hc
          have hw : tickViolates s gerr := ⟨hv, by simpa using hc, fun hn => hne ⟨hn.1, hn.2.1⟩⟩
          refine ⟨s.seq.mode, s.seq.gyroFallback, _, _, _, _, _, true, _, rfl, .inl ⟨rfl, rfl⟩, .inr ⟨rfl, hw⟩, ?_, ?_⟩
          · cases s.toggleLoop.seq.mode <;> simp [PidState.scramble]
          · cases hm : s.seq.mode with
            | manual => left; simp [hm]
            | gyroStabilized => exact .inr (.inr ⟨hw, rfl, by simpa [hm] using hne⟩)
    · simp only [Host.Outcome.next.injEq] at h; subst h
      exact ⟨s.seq.mode, s.seq.gyroFallback, 0, 0, 0, false, s.pid, s.err.mapDomain, s.free, rfl, .inl ⟨rfl, rfl⟩, .inl ⟨rfl, rfl, by simp⟩, by simp, by simp⟩
  · simp at h; left; exact ⟨by simp_all, h.symm⟩

/-- A running loop's tick with valid channels. -/
theorem execCtrlTick_valid {s : State} (gx gy gz : Half) (gerr : Bool) (h1 : s.seq.loopRun = true)
    (h2 : s.chan.valid = true) : execCtrlTick gx gy gz gerr s = .next (s.toggleLoop.validTick gz gerr) := by
  unfold execCtrlTick; rw [if_pos h1, if_pos h2]

/-- A running loop's tick without valid channels. -/
theorem execCtrlTick_invalid {s : State} (gx gy gz : Half) (gerr : Bool) (h1 : s.seq.loopRun = true)
    (h2 : s.chan.valid = false) : execCtrlTick gx gy gz gerr s = .next s.toggleLoop.neutral := by
  unfold execCtrlTick; rw [if_pos h1, if_neg (by rw [h2]; exact Bool.false_ne_true)]

/-- A valid tick without a gyro error in GyroStabilized mode. -/
theorem validTick_noError {s : State} (gz : Half) {gerr : Bool} (h : s.gyroError gerr = false) :
    s.validTick gz gerr = s.mix gz := if_neg (by rw [h]; exact Bool.false_ne_true)

/-- The mixing of a tick in contract. -/
theorem mix_manual {s : State} (gz : Half) (h1 : s.loop.contractHolds = true) (h2 : s.seq.mode = .manual) :
    s.mix gz = s.mixManual := by
  unfold State.mix; rw [if_pos h1, h2]

theorem mix_gyro {s : State} (gz : Half) (h1 : s.loop.contractHolds = true) (h2 : s.seq.mode = .gyroStabilized) :
    s.mix gz = s.mixGyro gz := by
  unfold State.mix; rw [if_pos h1, h2]

/-- The mixing of a tick out of contract. -/
theorem mix_violation {s : State} (gz : Half) (h : s.loop.contractHolds = false) :
    s.mix gz = s.contractViolation s.seq.mode := if_neg (by rw [h]; exact Bool.false_ne_true)

/-- What a CAP_PERIOD can do to the PulseAccumulator: NEG_WIDTH stays, and the decoder ends Seeking at INDEX 0, or
Accumulating at INDEX 1 or at INDEX + 2, or is untouched while Seeking. -/
theorem onPeriod_cases {d e : PulseAccumulator} {cfg : InputConfig} {p : Word} (h : d.onPeriod cfg p = some e) :
    e.negWidth = d.negWidth ∧
    ((e.phase = .seeking ∧ e.index = 0) ∨ (e.phase = .accumulating ∧ e.index = 1) ∨
      (d.phase = .accumulating ∧ e.phase = .accumulating ∧ e.index = d.index + 2) ∨ (d.phase = .seeking ∧ e = d)) := by
  refine ⟨onPeriod_negWidth h, ?_⟩
  unfold PulseAccumulator.onPeriod at h
  dsimp only at h
  split at h
  · cases h; unfold PulseAccumulator.sync; split
    · exact .inr (.inl ⟨rfl, rfl⟩)
    · exact .inl ⟨rfl, rfl⟩
  · split at h
    · rename_i hp
      cases h; exact .inr (.inr (.inr ⟨hp, rfl⟩))
    · rename_i hp
      split at h
      · simp only [PulseAccumulator.append, storeSlot] at h
        split at h
        · split at h
          · simp at h; subst h; exact .inr (.inr (.inl ⟨hp, hp, rfl⟩))
          · simp at h
        · simp at h
      · cases h; exact .inl ⟨rfl, rfl⟩

/-- What a CAP_PERIOD can leave: the PulseAccumulator alone, or a commit of its slots. -/
theorem execCapPeriod_cases {s t : State} {p now : Word} (h : execCapPeriod p now s = .next t) :
    ∃ d, s.dec.onPeriod s.inp p = some d ∧
      ((t = { s with dec := d } ∧ ¬ (d.phase = .accumulating ∧ d.index = 5)) ∨
        (t = State.commit { s with dec := d } now ∧ d.phase = .accumulating ∧ d.index = 5)) := by
  unfold execCapPeriod at h
  split at h
  · simp at h
  · rename_i d hd
    refine ⟨d, hd, ?_⟩
    split at h
    · rename_i hc; simp only [Host.Outcome.next.injEq] at h; exact .inr ⟨h.symm, hc⟩
    · rename_i hc; simp only [Host.Outcome.next.injEq] at h; exact .inl ⟨h.symm, hc⟩

/-- What a CAL_SAMPLE can leave: nothing changed; a failed calibration; a warm-up count; a sum and a count; or these
with the bias and the move to Done. -/
theorem execCalSample_cases {s t : State} {x y z : Half} {e : Bool} (h : execCalSample x y z e s = .next t) :
    t = s ∨ ((s.cal.calState = .warmup ∨ s.cal.calState = .accumulate) ∧ t = s.calFail) ∨
    (∃ r, s.cal.calState = .warmup ∧ t = { s with
      cal := { s.cal with calRem := r, calState := if r = 0 then .accumulate else s.cal.calState } }) ∨
    (∃ sums cnt, s.cal.calState = .accumulate ∧ t = { s with cal := { s.cal with calSum := sums, calCnt := cnt } }) ∨
    (∃ sums cnt b, s.cal.calState = .accumulate ∧ t = { s with
      cal := { s.cal with calSum := sums, calCnt := cnt, bias := b, calState := .done }
      seq := { s.seq with mode := .gyroStabilized } }) := by
  unfold execCalSample at h
  split at h
  · rename_i hw
    split at h
    · simp at h; subst h; exact .inr (.inl ⟨.inl hw, rfl⟩)
    · have h := checked_next h
      unfold State.calWarm at h
      simp only [Option.bind_eq_bind, Option.bind_eq_some_iff, Option.some.injEq] at h
      obtain ⟨r, -, rfl⟩ := h
      exact .inr (.inr (.inl ⟨r, hw, rfl⟩))
  · rename_i hw
    split at h
    · simp at h; subst h; exact .inr (.inl ⟨.inr hw, rfl⟩)
    · have h := checked_next h
      unfold State.calAdd at h
      simp only [Option.bind_eq_bind, Option.bind_eq_some_iff] at h
      obtain ⟨sx, -, sy, -, sz, -, cnt, -, h⟩ := h
      split at h
      · unfold State.calDone at h
        simp only [Option.bind_eq_bind, Option.bind_eq_some_iff, Option.some.injEq] at h
        obtain ⟨a, -, b, -, c, -, rfl⟩ := h
        exact .inr (.inr (.inr (.inr ⟨_, _, _, hw, rfl⟩)))
      · simp only [Option.some.injEq] at h; subst h; exact .inr (.inr (.inr (.inl ⟨_, _, hw, rfl⟩)))
  all_goals (simp at h; subst h; exact .inl rfl)

/-- What a REG_WRITE can leave: ERR_BAD_REG alone, or the configuration alone. -/
theorem execRegWrite_cases {s t : State} {a : RegAddr} {v : Word} (h : execRegWrite a v s = .next t) :
    t = s.raise .badReg ∨ ∃ c l, t = { s with inp := c, loop := l } := by
  unfold execRegWrite at h
  split at h
  · simp at h; exact .inl h.symm
  · split at h <;> simp at h <;> subst h
    · exact .inl rfl
    · right; rename_i row _ _ _; cases row.reg <;> exact ⟨_, _, rfl⟩

/-- What an FS_TICK leaves. -/
theorem execFsTick_cases {s t : State} {now : Word} {fault : Bool} (h : execFsTick now fault s = .next t) :
    ∃ (stale cut : Bool), (stale = true ↔ uval s.inp.timeout < uval (s.elapsed now)) ∧
      (cut = true ↔ fault = true ∧ s.inp.faultPolicy = .cutWeapon) ∧
      t = { s with
        chan := { s.chan with valid := if stale then false else s.chan.valid }
        ind := { s.ind with losInd := if stale then true else s.ind.losInd }
        fs := { faultIn := fault, faultLatch := if cut then true else s.fs.faultLatch }
        seq := { s.seq with weaponWidth := if cut then 0 else s.seq.weaponWidth
                            weaponEn := if cut then false else s.seq.weaponEn } } := by
  refine ⟨decide (uval s.inp.timeout < uval (s.elapsed now)), decide (fault = true ∧ s.inp.faultPolicy = .cutWeapon),
    decide_eq_true_iff, decide_eq_true_iff, ?_⟩
  simp only [execFsTick, Host.Outcome.next.injEq] at h
  subst h
  unfold State.pollFault State.checkStale
  by_cases h1 : uval s.inp.timeout < uval (s.elapsed now) <;>
    by_cases h2 : fault = true ∧ s.inp.faultPolicy = .cutWeapon <;>
    simp [h1, h2, State.weaponIdle]

/-- A checked store answers exactly where the value fits, with a pattern that reads back. -/
theorem fitS64_some {x : Int} {v : Dword} (h : fitS 64 x = some v) : v.toInt = x := by
  unfold fitS at h
  split at h
  · rename_i hx; cases h; exact toInt_pattern64 hx.1 hx.2
  · simp at h

theorem fitS16_some {x : Int} {v : Half} (h : fitS 16 x = some v) : v.toInt = x := by
  unfold fitS at h
  split at h
  · rename_i hx; cases h; exact toInt_pattern16 hx.1 hx.2
  · simp at h

theorem fitU32_some {x : Int} {v : Word} (h : fitU 32 x = some v) : (v.toNat : Int) = x := by
  unfold fitU at h
  split at h
  · rename_i hx; cases h; exact toNat_pattern32 hx.1 hx.2
  · simp at h

/-- The mean of the sum of n samples fits s16. -/
theorem axisMean_eq {sum : Dword} {n : Word} (hn : 0 < n.toNat) (h1 : -(32768 * (n.toNat : Int)) ≤ sum.toInt)
    (h2 : sum.toInt ≤ 32767 * (n.toNat : Int)) :
    ∃ m : Half, axisMean sum n = some m ∧ m.toInt = sum.toInt.tdiv n.toNat := by
  have hb : (0 : Int) < n.toNat := by omega
  have h := tdiv_bounds (a := sum.toInt) (b := n.toNat) (lo := -32768) (hi := 32767) hb (by omega) (by omega)
    (by omega) h2
  refine ⟨pattern 16 (sum.toInt.tdiv n.toNat), fitS16_eq (by show _ ≤ Int.tdiv sum.toInt n.toNat; omega)
    (by show Int.tdiv sum.toInt n.toNat < _; omega), ?_⟩
  exact toInt_pattern16 (by omega) (by omega)

/-- A finished calibration writes the three means and sets MODE; nothing else. -/
theorem calDone_eq {s : State} (hn : 0 < s.cal.calN.toNat)
    (h0 : -(32768 * (s.cal.calN.toNat : Int)) ≤ s.cal.calSum[0].toInt ∧ s.cal.calSum[0].toInt ≤ 32767 * (s.cal.calN.toNat : Int))
    (h1 : -(32768 * (s.cal.calN.toNat : Int)) ≤ s.cal.calSum[1].toInt ∧ s.cal.calSum[1].toInt ≤ 32767 * (s.cal.calN.toNat : Int))
    (h2 : -(32768 * (s.cal.calN.toNat : Int)) ≤ s.cal.calSum[2].toInt ∧ s.cal.calSum[2].toInt ≤ 32767 * (s.cal.calN.toNat : Int)) :
    ∃ bx by' bz : Half, bx.toInt = s.cal.calSum[0].toInt.tdiv s.cal.calN.toNat ∧
      by'.toInt = s.cal.calSum[1].toInt.tdiv s.cal.calN.toNat ∧ bz.toInt = s.cal.calSum[2].toInt.tdiv s.cal.calN.toNat ∧
      s.calDone = some { s with
        cal := { s.cal with bias := #v[bx, by', bz], calState := .done }
        seq := { s.seq with mode := .gyroStabilized } } := by
  obtain ⟨bx, ex, hx⟩ := axisMean_eq hn h0.1 h0.2
  obtain ⟨b, ey, hy⟩ := axisMean_eq hn h1.1 h1.2
  obtain ⟨bz, ez, hz⟩ := axisMean_eq hn h2.1 h2.2
  exact ⟨bx, b, bz, hx, hy, hz, by simp [State.calDone, ex, ey, ez]⟩

end Sys2Proof.Laws
end

