-- ==== Sys2Proof/Machine/Listing.lean ====
section
/-! DEFINITION. The assembler syntax, the pseudo-commands and the disassembler (spec/30_encoding.md R89 to R91). Text is
a list of characters. No step of the block reads it. -/

namespace Sys2Proof.Machine

/-- Mnemonics (R84). -/
def mnemonic : Opcode → List Char
  | .nop => "NOP".toList
  | .capWidth => "CAP_WIDTH".toList
  | .capPeriod => "CAP_PERIOD".toList
  | .fsTick => "FS_TICK".toList
  | .map => "MAP".toList
  | .avg => "AVG".toList
  | .sign => "SIGN".toList
  | .negabs => "NEGABS".toList
  | .pidConfigure => "PID_CONFIGURE".toList
  | .pidRun => "PID_RUN".toList
  | .pidSetLimits => "PID_SET_LIMITS".toList
  | .pidSetPeriod => "PID_SET_PERIOD".toList
  | .pidSetSetpoint => "PID_SET_SETPOINT".toList
  | .calStart => "CAL_START".toList
  | .calSample => "CAL_SAMPLE".toList
  | .loopStart => "LOOP_START".toList
  | .ctrlTick => "CTRL_TICK".toList
  | .regRead => "REG_READ".toList
  | .regWrite => "REG_WRITE".toList

/-- The name of a PID value in a register name (R31). -/
def pidValueName : PidValue → String
  | .zp => "ZP"
  | .zi => "ZI"
  | .zd => "ZD"
  | .outMin => "OUT_MIN"
  | .outMax => "OUT_MAX"
  | .setpoint => "SETPOINT"
  | .integral => "INTEGRAL"
  | .prevMeas => "PREV_MEAS"
  | .prevOut => "PREV_OUT"

/-- Register names (R31). -/
def regName : Reg → List Char
  | .status => "STATUS".toList
  | .decState => "DEC_STATE".toList
  | .negWidth => "NEG_WIDTH".toList
  | .frameSeq => "FRAME_SEQ".toList
  | .ch 0 => "CH0".toList
  | .ch 1 => "CH1".toList
  | .ch 2 => "CH2".toList
  | .ch 3 => "CH3".toList
  | .ch 4 => "CH4".toList
  | .tCommit => "T_COMMIT".toList
  | .config => "CONFIG".toList
  | .syncGap => "SYNC_GAP".toList
  | .pulseMin => "PULSE_MIN".toList
  | .pulseMax => "PULSE_MAX".toList
  | .neutral => "NEUTRAL".toList
  | .timeout => "TIMEOUT".toList
  | .inLow => "IN_LOW".toList
  | .inHigh => "IN_HIGH".toList
  | .chDeadband => "CH_DEADBAND".toList
  | .driveRange => "DRIVE_RANGE".toList
  | .outDeadband => "OUT_DEADBAND".toList
  | .weaponRange => "WEAPON_RANGE".toList
  | .yawFs => "YAW_FS".toList
  | .bias 0 => "BIAS_X".toList
  | .bias 1 => "BIAS_Y".toList
  | .bias 2 => "BIAS_Z".toList
  | .driveLeft => "DRIVE_LEFT".toList
  | .driveRight => "DRIVE_RIGHT".toList
  | .weaponWidth => "WEAPON_WIDTH".toList
  | .weaponEn => "WEAPON_EN".toList
  | .pidLo v => (pidValueName v).toList ++ "_LO".toList
  | .pidHi v => (pidValueName v).toList ++ "_HI".toList
  | .pidPeriod => "PID_PERIOD".toList
  | .pidFlags => "PID_FLAGS".toList
  | .runCount => "RUN_COUNT".toList

/-! The disassembler. -/

/-- The digit of a value below 16, in capitals. -/
def hexDigit (n : Nat) : Char := "0123456789ABCDEF".toList.getD n '0'

/-- The k low hexadecimal digits of n. -/
def hexDigits : Nat → Nat → List Char
  | 0, _ => []
  | k + 1, n => hexDigits k (n / 16) ++ [hexDigit (n % 16)]

/-- A word as `0x` and eight digits. -/
def showWord (w : Word) : List Char := "0x".toList ++ hexDigits 8 w.toNat

/-- An integer in decimal. -/
def showInt (x : Int) : List Char := if x < 0 then '-' :: Nat.toDigits 10 x.natAbs else Nat.toDigits 10 x.natAbs

/-- A register by its name where the address is mapped, else the byte address (R89). -/
def showReg (a : RegAddr) : List Char :=
  match regAt a with
  | some row => regName row.reg
  | none => "0x".toList ++ hexDigits 2 a.toNat

/-- The pidflags operand (R89). -/
def showFlags (d : Direction) (m : OutputMode) : List Char :=
  (match d with
    | .direct => "Direct ".toList
    | .reverse => "Reverse ".toList) ++
  (match m with
    | .nonAccumulating => "NonAccumulating".toList
    | .accumulating => "Accumulating".toList)

/-- A u32 operand. -/
def showU (w : Word) : List Char := showInt w.toNat

/-- A signed operand. -/
def showS {n : Nat} (w : BitVec n) : List Char := showInt w.toInt

/-- A Q47.16 operand as an integer count of 2^-16 units followed by `q` (R89). -/
def showQ (d : Dword) : List Char := showInt d.toInt ++ ['q']

/-- A b1 operand. -/
def showB (b : Bool) : List Char := if b then ['1'] else ['0']

/-- The operands of a command as text, in format order (R89). -/
def Instr.operandText : Instr → List (List Char)
  | .nop => []
  | .capWidth w => [showU w]
  | .capPeriod p now => [showU p, showU now]
  | .fsTick now fault => [showU now, showB fault]
  | .map a b c d e f => [showS a, showS b, showS c, showS d, showS e, showS f]
  | .avg a b => [showS a, showS b]
  | .sign x => [showS x]
  | .negabs x => [showS x]
  | .pidConfigure kp ki kd dir omode t outMin outMax sp =>
    [showQ kp, showQ ki, showQ kd, showFlags dir omode, showS t, showQ outMin, showQ outMax, showQ sp]
  | .pidRun meas => [showQ meas]
  | .pidSetLimits min max => [showQ min, showQ max]
  | .pidSetPeriod t => [showS t]
  | .pidSetSetpoint sp => [showQ sp]
  | .calStart warmup n => [showU warmup, showU n]
  | .calSample x y z err => [showS x, showS y, showS z, showB err]
  | .loopStart => []
  | .ctrlTick gx gy gz gerr => [showS gx, showS gy, showS gz, showB gerr]
  | .regRead a => [showReg a]
  | .regWrite a v => [showReg a, showU v]

/-- Texts joined by a separator. -/
def joinWith (sep : List Char) : List (List Char) → List Char
  | [] => []
  | [x] => x
  | x :: y :: rest => x ++ sep ++ joinWith sep (y :: rest)

/-- A legal frame by its mnemonic and operands, an illegal one as `.illegal`, word 0 and its operand words (R91). -/
def disassemble (f : Frame) : List Char :=
  match decode f with
  | .ok i =>
    match Instr.operandText i with
    | [] => mnemonic i.opcode
    | ops => mnemonic i.opcode ++ [' '] ++ joinWith ", ".toList ops
  | .error _ => ".illegal ".toList ++ joinWith [' '] ((f.word0 :: f.operands).map showWord)

/-! The assembler. -/

/-- The value of a digit in the given base. -/
def digitValue (base : Nat) (c : Char) : Option Nat :=
  let n := c.toNat
  let v := if 48 ≤ n ∧ n ≤ 57 then n - 48 else if 65 ≤ n ∧ n ≤ 70 then n - 55 else if 97 ≤ n ∧ n ≤ 102 then n - 87 else 99
  if v < base then some v else none

/-- The number a list of digits spells; none for a character that is no digit. -/
def readDigits (base : Nat) : List Char → Nat → Option Nat
  | [], acc => some acc
  | c :: cs, acc => do
    let v ← digitValue base c
    readDigits base cs (acc * base + v)

/-- An unsigned integer, decimal or `0x` hexadecimal, at least one digit (R89). -/
def readNat : List Char → Option Nat
  | [] => none
  | '0' :: 'x' :: [] => none
  | '0' :: 'x' :: cs => readDigits 16 cs 0
  | cs => readDigits 10 cs 0

/-- An optional sign and the rest. -/
def readSign : List Char → Int × List Char
  | '-' :: cs => (-1, cs)
  | '+' :: cs => (1, cs)
  | cs => (1, cs)

/-- An integer with an optional sign (R89). -/
def readInt (cs : List Char) : Option Int := do
  let n ← readNat (readSign cs).2
  some ((readSign cs).1 * n)

/-- A decimal number with a fractional part, in units of 2^-16; none where it is not exactly representable (R89). -/
def readDecimal (cs : List Char) : Option Int := do
  let (sgn, body) := readSign cs
  let whole := body.takeWhile (fun c => c != '.')
  match body.dropWhile (fun c => c != '.') with
  | '.' :: frac =>
    if whole = [] ∨ frac = [] then none
    else
      let w ← readDigits 10 whole 0
      let f ← readDigits 10 frac 0
      let scale := 10 ^ frac.length
      let num := (w * scale + f) * 65536
      if num % scale = 0 then some (sgn * ((num / scale : Nat) : Int)) else none
  | _ => none

/-- A Q47.16 operand: an integer followed by `q`, a decimal number, or a plain integer, which stands for that whole
number (R89; the last is a DESIGN CHOICE, notes/assumptions/10.md). -/
def readQ (cs : List Char) : Option Dword := do
  let v ← match cs.getLast? with
    | some 'q' => readInt cs.dropLast
    | _ => match readDecimal cs with
      | some v => some v
      | none => (readInt cs).map fx
  fitS 64 v

/-- A u32 operand. -/
def readU (cs : List Char) : Option Word := (readInt cs).bind (fitU 32)

/-- A signed operand of n bits. -/
def readS (n : Nat) (cs : List Char) : Option (BitVec n) := (readInt cs).bind (fitS n)

/-- A b1 operand. -/
def readB (cs : List Char) : Option Bool :=
  match readInt cs with
  | some 0 => some false
  | some 1 => some true
  | _ => none

/-- A register by name or byte address (R89). -/
def readReg (cs : List Char) : Option RegAddr :=
  match regMap.find? (fun row => regName row.reg == cs) with
  | some row => some row.addr
  | none => (readInt cs).bind (fitU 8)

/-- Text without the spaces at its two ends. -/
def strip (cs : List Char) : List Char :=
  ((cs.dropWhile (fun c => c == ' ')).reverse.dropWhile (fun c => c == ' ')).reverse

/-- Text cut at every occurrence of a character. -/
def splitAtChar (sep : Char) : List Char → List (List Char)
  | [] => [[]]
  | c :: cs =>
    match splitAtChar sep cs with
    | [] => [[c]]
    | x :: xs => if c == sep then [] :: x :: xs else (c :: x) :: xs

/-- The words of a text between spaces. -/
def wordsIn (cs : List Char) : List (List Char) := (splitAtChar ' ' cs).filter (fun w => w != [])

/-- The pidflags operand (R89). -/
def readFlags (cs : List Char) : Option (Direction × OutputMode) :=
  match wordsIn cs with
  | [d, m] => do
    let dir ← if d = "Direct".toList then some Direction.direct
      else if d = "Reverse".toList then some Direction.reverse else none
    let omode ← if m = "NonAccumulating".toList then some OutputMode.nonAccumulating
      else if m = "Accumulating".toList then some OutputMode.accumulating else none
    some (dir, omode)
  | _ => none

/-- The command with a given opcode and operand texts (R89). -/
def readOperands (o : Opcode) (ops : List (List Char)) : Option Instr :=
  match o, ops with
  | .nop, [] => some .nop
  | .loopStart, [] => some .loopStart
  | .capWidth, [w] => do some (.capWidth (← readU w))
  | .sign, [x] => do some (.sign (← readS 32 x))
  | .negabs, [x] => do some (.negabs (← readS 32 x))
  | .pidSetPeriod, [t] => do some (.pidSetPeriod (← readS 32 t))
  | .pidRun, [m] => do some (.pidRun (← readQ m))
  | .pidSetSetpoint, [sp] => do some (.pidSetSetpoint (← readQ sp))
  | .regRead, [a] => do some (.regRead (← readReg a))
  | .regWrite, [a, v] => do some (.regWrite (← readReg a) (← readU v))
  | .capPeriod, [p, now] => do some (.capPeriod (← readU p) (← readU now))
  | .calStart, [w, n] => do some (.calStart (← readU w) (← readU n))
  | .fsTick, [now, f] => do some (.fsTick (← readU now) (← readB f))
  | .avg, [a, b] => do some (.avg (← readS 32 a) (← readS 32 b))
  | .pidSetLimits, [lo, hi] => do some (.pidSetLimits (← readQ lo) (← readQ hi))
  | .calSample, [x, y, z, e] => do
    some (.calSample (← readS 16 x) (← readS 16 y) (← readS 16 z) (← readB e))
  | .ctrlTick, [x, y, z, e] => do
    some (.ctrlTick (← readS 16 x) (← readS 16 y) (← readS 16 z) (← readB e))
  | .map, [a, b, c, d, e, f] => do
    some (.map (← readS 32 a) (← readS 32 b) (← readS 32 c) (← readS 32 d) (← readS 32 e) (← readS 32 f))
  | .pidConfigure, [kp, ki, kd, fl, t, lo, hi, sp] => do
    let flags ← readFlags fl
    some (.pidConfigure (← readQ kp) (← readQ ki) (← readQ kd) flags.1 flags.2 (← readS 32 t)
      (← readQ lo) (← readQ hi) (← readQ sp))
  | _, _ => none

/-- PPM_FRAME's operands: five commas, then `@ t` (R90). The sums must fit u32. -/
def readPpm (ops : List (List Char)) : Option (List Instr) :=
  match ops with
  | [gap, s0, s1, s2, s3, last] =>
    match splitAtChar '@' last with
    | [s4, t] => do
      let g ← readU gap
      let w0 ← readU s0
      let w1 ← readU s1
      let w2 ← readU s2
      let w3 ← readU s3
      let w4 ← readU (strip s4)
      let now ← readU (strip t)
      if g.toNat + w0.toNat < 2 ^ 32 ∧ w1.toNat + w2.toNat < 2 ^ 32 ∧ w3.toNat + w4.toNat < 2 ^ 32 then
        some (ppmFrame g w0 w1 w2 w3 w4 now)
      else none
    | _ => none
  | _ => none

/-- The pseudo-commands (R90). READ_FRAME stands for one pass of its loop (R74). -/
def readPseudo (name : List Char) (ops : List (List Char)) : Option (List Instr) :=
  if name = "PPM_FRAME".toList then readPpm ops
  else if name = "CTRL_TICK_MANUAL".toList ∧ ops = [] then some ctrlTickManual
  else if name = "READ_FRAME".toList ∧ ops = [] then some readFramePass
  else if name = "PID_SET_LIMITS_INT".toList then
    match ops with
    | [lo, hi] => do pidSetLimitsInt (← readInt lo) (← readInt hi)
    | _ => none
  else none

/-- The words of an `.illegal` line (R91). -/
def readIllegal (ws : List (List Char)) : Option (List Frame) := do
  match ← ws.mapM readU with
  | [] => none
  | w :: ops => some [⟨w, ops⟩]

/-- The frames of one line: a command, a pseudo-command, an `.illegal` frame, or nothing; a comment starts with `;`
(R89 to R91). None where the line is refused. -/
def assembleLine (line : List Char) : Option (List Frame) :=
  let text := strip (line.takeWhile (fun c => c != ';'))
  let name := text.takeWhile (fun c => c != ' ')
  let rest := strip (text.dropWhile (fun c => c != ' '))
  let ops := if rest = [] then [] else (splitAtChar ',' rest).map strip
  if text = [] then some []
  else if name = ".illegal".toList then readIllegal (wordsIn rest)
  else
    match Opcode.all.find? (fun o => mnemonic o == name) with
    | some o => (readOperands o ops).map (fun i => [encode i])
    | none => (readPseudo name ops).map (fun is => is.map encode)

end Sys2Proof.Machine
end

