-- ==== Sys2Proof/Tests/Slice0.lean ====
section
/-! SUPPORT. Tests. The expected values come from spec/95_test_vectors.md and from the examples of the rules, named at
each test; the last section shows, for each statement that has hypotheses, states and operands that meet them. -/

namespace Sys2Proof.Tests

open Sys2Proof Sys2Proof.Machine

/-! Helpers. -/

/-- The step completed. -/
def isNext (o : Host.Outcome State Fault Refusal) : Bool :=
  match o with
  | .next _ => true
  | .fault _ => false
  | .refused _ => false

/-- The state a completed step leaves. -/
def nextOf (o : Host.Outcome State Fault Refusal) : State :=
  match o with
  | .next s => s
  | .fault _ => State.reset
  | .refused _ => State.reset

theorem next_of_isNext {o : Host.Outcome State Fault Refusal} (h : isNext o = true) : o = .next (nextOf o) := by
  cases o with
  | next s => rfl
  | fault r => cases h
  | refused r => cases h

/-- The state after one command. -/
def after (i : Instr) (s : State) : State := nextOf (exec i s)

/-- The command completed and left a state with this property. -/
def gives (i : Instr) (s : State) (p : State → Bool) : Bool := isNext (exec i s) && p (after i s)

/-- The REF configuration of R315. -/
def refLoop : LoopConfig :=
  { inLow := 1000, inHigh := 2000, chDeadband := 20, driveRange := 1000, outDeadband := 10, weaponRange := 1000, yawFs := 500 }

/-- The REF controller of R315. -/
def refPid : PidState :=
  PidState.configured 65536 0 0 .direct .nonAccumulating 5 (-32768000) 32768000 0

/-- REF with the loop running and a committed frame. -/
def running (c0 c1 c2 : Word) : State :=
  { State.reset with
    loop := refLoop
    pid := refPid
    seq := { State.reset.seq with loopRun := true }
    chan := { ch := #v[c0, c1, c2, 1500, 1500], valid := true, tCommit := 1000, frameSeq := 1 } }

/-- The same after a calibration with the given z bias. -/
def stabilized (c0 c1 c2 : Word) (biasZ : Half) : State :=
  { running c0 c1 c2 with
    seq := { State.reset.seq with loopRun := true, mode := .gyroStabilized }
    cal := { State.reset.cal with calState := .done, calN := 1, calCnt := 1, calSum := #v[0, 0, biasZ.signExtend 64],
                                  bias := #v[0, 0, biasZ] } }

/-- A calibrator accumulating n samples, cnt of them taken with these sums. -/
def accumulating (n cnt : Word) (x y z : Dword) : State :=
  { State.reset with
    cal := { State.reset.cal with calState := .accumulate, calN := n, calCnt := cnt, calSum := #v[x, y, z] } }

/-- A calibrator with rem warm-up samples and n samples to come. -/
def warming (rem n : Word) : State :=
  { State.reset with cal := { State.reset.cal with calState := .warmup, calRem := rem, calN := n } }

/-- A decoder in the given state with low width n recorded. -/
def decoding (phase : Phase) (index : BitVec 3) (n : Word) : State :=
  { State.reset with dec := { phase := phase, index := index, buf := #v[1100, 1200, 1300, 0, 0], negWidth := n } }

/-- The PID of V-PID-1. -/
def vPid1 : State :=
  { State.reset with
    pid := PidState.configured 131072 65536 32768 .direct .nonAccumulating 5 (-65536000) 65536000 0 }

/-! Legality: a legal frame, and one ill-formed frame for each condition of R86. -/

theorem test_legal_frame : (Frame.mk 0x00000011 [0x00001D4C, 0x00000064]).legal = true := by decide
theorem test_illegal_reserved_op : (Frame.mk 0x00000099 []).opAssigned = false ∧ (Frame.mk 0x00000099 []).legal = false := by decide
theorem test_illegal_rsvd : (Frame.mk 0x00010000 []).rsvdZero = false ∧ (Frame.mk 0x00010000 []).legal = false := by decide
theorem test_illegal_addr : (Frame.mk 0x00000400 []).addrAllowed = false ∧ (Frame.mk 0x00000400 []).legal = false := by decide
theorem test_illegal_length : (Frame.mk 0x00000031 [1]).lengthRight = false ∧ (Frame.mk 0x00000031 [1]).legal = false := by decide
theorem test_illegal_reasons :
    decode ⟨0x00000099, []⟩ = .error .reservedOpcode ∧ decode ⟨0x00010000, []⟩ = .error .reservedBits ∧
    decode ⟨0x00000400, []⟩ = .error .addrNotZero ∧ decode ⟨0x00000031, [1]⟩ = .error .wrongLength := by decide

/-! Decoding: one word of each command, written from R81 to R84 and the encodings of spec/95_test_vectors.md. -/

theorem test_decode_nop : decode ⟨0x00000000, []⟩ = .ok .nop := by decide
theorem test_decode_capWidth : decode ⟨0x00000010, [0x00001770]⟩ = .ok (.capWidth 6000) := by decide
theorem test_decode_capPeriod : decode ⟨0x00000011, [0x00001D4C, 0x000004D2]⟩ = .ok (.capPeriod 7500 1234) := by decide
theorem test_decode_fsTick : decode ⟨0x00000020, [0x0000000A, 0x00000001]⟩ = .ok (.fsTick 10 true) := by decide
theorem test_decode_map :
    decode ⟨0x00000030, [0x000003E8, 0x000007D0, 0x00000640, 0xFFFF8000, 0x00007FFF, 0x00000014]⟩ =
      .ok (.map 1000 2000 1600 (-32768) 32767 20) := by decide
theorem test_decode_avg : decode ⟨0x00000031, [0xFFFFFFFD, 0x00000004]⟩ = .ok (.avg (-3) 4) := by decide
theorem test_decode_sign : decode ⟨0x00000032, [0xFFFFFFF9]⟩ = .ok (.sign (-7)) := by decide
theorem test_decode_negabs : decode ⟨0x00000033, [0x00000005]⟩ = .ok (.negabs 5) := by decide
theorem test_decode_pidConfigure :
    decode ⟨0x00000040, [0x00020000, 0, 0x00010000, 0, 0x00008000, 0, 0x00000003, 0x00000005, 0xFC180000, 0xFFFFFFFF,
      0x03E80000, 0, 0xFFFD0000, 0xFFFFFFFF]⟩ =
      .ok (.pidConfigure 131072 65536 32768 .reverse .accumulating 5 (-65536000) 65536000 (-196608)) := by decide
theorem test_decode_pidRun : decode ⟨0x00000041, [0xFFFD0000, 0xFFFFFFFF]⟩ = .ok (.pidRun (-196608)) := by decide
theorem test_decode_pidSetLimits :
    decode ⟨0x00000042, [0xFFF60000, 0xFFFFFFFF, 0x000A0000, 0x00000000]⟩ = .ok (.pidSetLimits (-655360) 655360) := by decide
theorem test_decode_pidSetPeriod : decode ⟨0x00000043, [0xFFFFFFFF]⟩ = .ok (.pidSetPeriod (-1)) := by decide
theorem test_decode_pidSetSetpoint :
    decode ⟨0x00000044, [0xFE910000, 0xFFFFFFFF]⟩ = .ok (.pidSetSetpoint (-24051712)) := by decide
theorem test_decode_calStart : decode ⟨0x00000050, [0x00000002, 0x00000004]⟩ = .ok (.calStart 2 4) := by decide
/-- V-CAL-6: the ignored bits have no effect. -/
theorem test_decode_calSample :
    decode ⟨0x00000051, [0xABCD0005, 0xFFFFFFFE, 0x0001FFFF, 0xFFFFFFFE]⟩ = .ok (.calSample 5 (-2) (-1) false) := by decide
theorem test_decode_loopStart : decode ⟨0x00000060, []⟩ = .ok .loopStart := by decide
theorem test_decode_ctrlTick :
    decode ⟨0x00000061, [0x00000005, 0x00000006, 0x00000030, 0x00000001]⟩ = .ok (.ctrlTick 5 6 48 true) := by decide
theorem test_decode_regRead : decode ⟨0x00001870, []⟩ = .ok (.regRead 0x18) := by decide
theorem test_decode_regWrite : decode ⟨0x00004C71, [0x000003E8]⟩ = .ok (.regWrite 0x4C 1000) := by decide

/-- The opcode table's words: word 0 with operand words of zeros. -/
theorem test_table_words :
    decodeTableWord 32 0x61 = some (.ctrlTick 0 0 0 false) ∧ decodeTableWord 32 0x70 = some (.regRead 0) ∧
    decodeTableWord 64 0x0000123400000010 = some (.capWidth 0x1234) ∧ decodeTableWord 32 0x12 = none := by decide

/-- A table word placed with withFetchWord is what the very next step runs. -/
theorem test_fetch_runs : (nextOf (step (State.reset.withFetchWord 64 0x0000123400000010))).dec.negWidth = 0x1234 := by
  decide

/-- An illegal frame is discarded with ERR_ILLEGAL_OP (V-ILL-1). -/
theorem test_illegal_frame_runs :
    (nextOf (runFrame ⟨0x00000099, []⟩ State.reset)).statusWord = 0x00010000 := by decide

/-! Execution, from spec/95_test_vectors.md. -/

/-- V-MAP-1. -/
theorem test_map : gives (.map 1000 2000 1600 (-32768) 32767 20) State.reset (fun s => s.resp == [5460]) = true := by decide
/-- V-MAP-16: STATUS becomes 0x00040000. -/
theorem test_map_violation :
    gives (.map 1000 1040 1020 0 10 20) State.reset
      (fun s => s.statusWord == 0x00040000 && s.resp.length == 1) = true := by decide
/-- V-AVG-3 and V-AVG-6. -/
theorem test_avg : gives (.avg 0x80000000 0x7FFFFFFF) State.reset (fun s => s.resp == [0xFFFFFFFF]) = true := by decide
theorem test_avg_floor : gives (.avg (-3) (-4)) State.reset (fun s => s.resp == [0xFFFFFFFC]) = true := by decide
/-- V-SIGN-3. -/
theorem test_sign : gives (.sign 0x80000000) State.reset (fun s => s.resp == [0xFFFFFFFF]) = true := by decide
/-- V-NEGABS-1 and V-NEGABS-2. -/
theorem test_negabs : gives (.negabs 5) State.reset (fun s => s.resp == [0xFFFFFFFB]) = true := by decide
theorem test_negabs_min : gives (.negabs 0x80000000) State.reset (fun s => s.resp == [0x80000000]) = true := by decide
/-- V-PID-3: Reverse negates the three gains. -/
theorem test_pidConfigure :
    gives (.pidConfigure 65536 65536 65536 .reverse .nonAccumulating 10 (-6553600) 6553600 0) State.reset
      (fun s => s.pid.zp == -65536 && s.pid.zi == -655 && s.pid.zd == -6553600 && s.pid.period == 10) = true := by decide
/-- V-PID-9: ZD saturates. -/
theorem test_pidConfigure_saturates :
    gives (.pidConfigure 65536 0x7FFFFFFFFFFFFFFF 0x7FFFFFFFFFFFFFFF .direct .nonAccumulating 1 (-65536) 65536 0) State.reset
      (fun s => s.pid.zi == 9223372036854775 && s.pid.zd == 0x7FFFFFFFFFFFFFFF) = true := by decide
/-- V-PID-1.1. -/
theorem test_pidRun :
    gives (.pidRun 655360) vPid1
      (fun s => s.resp == [0xFFEBF33A, 0xFFFFFFFF] && s.pid.integral == -3270 && s.pid.runCount == 1) = true := by decide
/-- V-PID-1.2: the derivative acts from the second run on. -/
theorem test_pidRun_derivative :
    gives (.pidRun 786432)
      { vPid1 with pid := { vPid1.pid with integral := -3270, prevMeas := 655360, prevOut := -1313990, runCount := 1 } }
      (fun s => s.resp == [0xFF1FE3E6, 0xFFFFFFFF] && s.pid.integral == -7194) = true := by decide
/-- V-PID-12: equal limits are refused, limits in order stored. -/
theorem test_pidSetLimits :
    gives (.pidSetLimits (-655360) 655360) vPid1 (fun s => s.pid.outMin == -655360 && s.pid.outMax == 655360) = true ∧
    gives (.pidSetLimits 65536 65536) vPid1 (fun s => s == vPid1) = true := by decide
/-- V-PID-7. -/
theorem test_pidSetPeriod :
    gives (.pidSetPeriod 3) { vPid1 with pid := { vPid1.pid with zi := 654, zd := 6553600, period := 10 } }
      (fun s => s.pid.zi == 196 && s.pid.zd == 21845333 && s.pid.period == 3) = true := by decide
/-- R134. -/
theorem test_pidSetSetpoint : gives (.pidSetSetpoint (-24051712)) vPid1 (fun s => s.pid.setpoint == -24051712) = true := by decide
/-- R160. -/
theorem test_capWidth : gives (.capWidth 6000) State.reset (fun s => s.dec.negWidth == 6000) = true := by decide
/-- R161: from reset, CAP_WIDTH 6000 then CAP_PERIOD 7500. -/
theorem test_capPeriod_sync :
    gives (.capPeriod 7500 100) (decoding .seeking 0 6000)
      (fun s => s.dec.index == 1 && s.dec.phase == .accumulating && s.dec.buf[0] == 1500) = true := by decide
/-- V-DEC-1, the last event: a commit. -/
theorem test_capPeriod_commit :
    gives (.capPeriod 3000 1234) (decoding .accumulating 3 1500)
      (fun s => s.chan == ⟨#v[1100, 1200, 1300, 1500, 1500], true, 1234, 1⟩ && s.statusWord == 5) = true := by decide
/-- V-CAL-1 and V-CAL-3. -/
theorem test_calStart :
    gives (.calStart 2 4) State.reset (fun s => s.statusWord == 0x200 && s.cal.calRem == 2) = true ∧
    gives (.calStart 5 0) State.reset (fun s => s == State.reset) = true := by decide
/-- V-CAL-1, the last sample: means round toward zero. -/
theorem test_calSample_done :
    gives (.calSample (-3) 5 (-3) false) (accumulating 4 3 (-8) 16 (-8))
      (fun s => s.cal.bias == #v[-2, 5, -2] && s.statusWord == 0x610) = true := by decide
/-- V-CAL-2: an error in the warm-up. -/
theorem test_calSample_error :
    gives (.calSample 0 0 0 true) (warming 2 2) (fun s => s.statusWord == 0x820 && s.cal.calRem == 2) = true := by decide
/-- V-FS-1 and V-FS-1b. -/
theorem test_fsTick_timeout :
    gives (.fsTick 501000 false) (running 1500 1500 1000) (fun s => s.chan.valid && !s.ind.losInd) = true ∧
    gives (.fsTick 501001 false) (running 1500 1500 1000) (fun s => !s.chan.valid && s.ind.losInd) = true := by decide
/-- V-FS-6, the first command. -/
theorem test_fsTick_cutWeapon :
    gives (.fsTick 10 true)
      { State.reset with inp := { State.reset.inp with faultPolicy := .cutWeapon }
                         seq := { State.reset.seq with weaponEn := true, weaponWidth := 700 } }
      (fun s => s.statusWord == 0x180 && s.seq.weaponWidth == 0 && !s.seq.weaponEn) = true := by decide
/-- R230, V-CAL-4. -/
theorem test_loopStart :
    gives .loopStart State.reset (fun s => s.statusWord == 0x40) = true ∧
    gives .loopStart (accumulating 2 0 0 0 0) (fun s => !s.seq.loopRun) = true := by decide
/-- V-TICK-1 row 5. -/
theorem test_ctrlTick_manual :
    gives (.ctrlTick 0 0 0 false) (running 1000 2000 1250)
      (fun s => s.seq.driveLeft == 1000 && s.seq.driveRight == 0 && s.seq.weaponWidth == 250 && s.seq.weaponEn) = true := by decide
/-- V-TICK-5. -/
theorem test_ctrlTick_gyro :
    gives (.ctrlTick 0 0 100 false) (stabilized 1750 1600 1500 0)
      (fun s => s.seq.driveLeft == -173 && s.seq.driveRight == 505 && s.seq.weaponWidth == 500 &&
        s.pid.setpoint == -15663104 && s.pid.prevOut == -22216704 && s.pid.runCount == 1) = true := by decide
/-- R261: SYNC_GAP at reset, and an unmapped address. -/
theorem test_regRead :
    gives (.regRead 0x2C) State.reset (fun s => s.resp == [0x00001388] && s.statusWord == 0) = true ∧
    gives (.regRead 0x5C) State.reset (fun s => s.resp == [0] && s.statusWord == 0x00020000) = true := by decide
/-- R262: the mask of CONFIG, and a read-only register. -/
theorem test_regWrite :
    gives (.regWrite 0x28 0xFFFFFFFF) State.reset (fun s => s.configWord == 7) = true ∧
    gives (.regWrite 0x00 0) State.reset (fun s => s.statusWord == 0x00020000) = true := by decide
/-- R260. -/
theorem test_nop : gives .nop vPid1 (fun s => s == vPid1) = true := by decide

/-! The listing (R89 to R91). -/

theorem test_assemble : assembleLine "CAP_PERIOD 7500, 100 ; period".toList = some [⟨0x11, [0x1D4C, 0x64]⟩] := by decide
theorem test_disassemble : disassemble ⟨0x00001870, []⟩ = "REG_READ CH2".toList := by decide

/-- R10 with ticks of 2 and 5 units: the ticks due together arrive together. -/
theorem test_tickSchedule : tickSchedule 2 5 10 =
    [.arrive [.ctl], .arrive [.ctl], .arrive [.fs], .arrive [.ctl], .arrive [.ctl], .arrive [.ctl, .fs]] := by decide

/-! Witnesses: for each statement with hypotheses, a state and operands that meet all of them, clause by clause. -/

theorem test_witness_IllegalFramesAreDiscardedWithErrorBit :
    (Frame.mk 0x00000060 []).legal = true ∧ (Frame.mk 0x0000FF71 [0]).legal = true ∧ (Frame.mk 0x00000072 []).legal = false := by
  decide

theorem test_witness_DecodedCommandKeepsWordZeroAndLength : decode ⟨0x0000FF71, [7]⟩ = .ok (.regWrite 0xFF 7) := by decide

/-- A released block at which CAP and HOST arrive together. -/
def arrivals : State :=
  (State.reset.setStream .cap [⟨0x10, [6000]⟩]).setSchedule [.arrive [.host, .cap]]

theorem test_witness_StepExecutesTheDecodedCommand :
    arrivals.env.rst = false ∧ arrivals.env.schedule = [.arrive [.host, .cap]] ∧
    arbitrate [.host, .cap] = some (.cap, [.host]) ∧ arrivals.env.streams.get .cap = [⟨0x10, [6000]⟩] ∧
    decode ⟨0x10, [6000]⟩ = .ok (.capWidth 6000) := by decide

theorem test_witness_AnyAgentMaySendAnyFrame : State.reset.env.rst = false := by decide

theorem test_witness_PortAcceptsHighestPriorityFirst :
    arbitrate [] = none ∧ arbitrate [.host, .gyr, .fs, .ctl] = some (.ctl, [.host, .gyr, .fs]) := by decide

theorem test_witness_AssertedRstReturnsEveryElement :
    ((running 1500 1500 1000).setSchedule [.rst true]).env.schedule = [.rst true] := by decide

/-- The running state with rst asserted or not and one event to come. -/
def withEvent (level : Bool) (l : List Event) : State :=
  { running 1500 1500 1000 with env := { State.reset.env with rst := level, schedule := l } }

theorem test_witness_EventsWithoutRstOrCommandChangeNoElement :
    (∀ l ∈ [[], [.arrive [.cap]], [.rst false], [.take]], ∀ rest, (withEvent true l).env.schedule ≠ .rst true :: rest) ∧
    (withEvent true [.arrive [.cap]]).env.rst = true ∧ (withEvent false []).env.schedule = [] ∧
    (withEvent true [.rst false]).env.schedule = [.rst false] ∧ (withEvent false [.take]).env.schedule = [.take] ∧
    (withEvent false [.arrive [.gyr]]).env.schedule = [.arrive [.gyr]] ∧ arbitrate [.gyr] = some (.gyr, []) ∧
    (withEvent false [.arrive [.gyr]]).env.streams.get .gyr = [] := by
  refine ⟨?_, rfl, rfl, rfl, rfl, rfl, rfl, rfl⟩
  intro l hl rest h
  simp only [List.mem_cons, List.not_mem_nil, or_false] at hl
  rcases hl with rfl | rfl | rfl | rfl <;> simp [withEvent] at h

theorem test_witness_ResetReadsGiveTheResetColumn :
    ¬ Rule.isUnmapped 0xD0 ∧ Rule.isUnmapped 0xD4 ∧ Rule.isUnmapped 0x5C ∧ Rule.isUnmapped 0x01 := by
  refine ⟨?_, ?_, ?_, ?_⟩ <;> unfold Rule.isUnmapped <;> decide

/-- A stabilized loop about to take a tick. -/
def tickToCome : State := (stabilized 1750 1600 1500 0).offer .ctl ⟨0x61, [0, 0, 100, 0]⟩

theorem test_witness_EveryStepKeepsTheInvariant :
    tickToCome.Inv ∧ step tickToCome = .next (nextOf (step tickToCome)) := ⟨by decide, next_of_isNext (by decide)⟩

theorem test_witness_InvariantStepsAlwaysComplete : tickToCome.Inv ∧ (accumulating 4 3 (-8) 16 (-8)).Inv :=
  ⟨by decide, by decide⟩

/-- In contract at the smallest span, and out of it at the next one. -/
theorem test_witness_MapEmitsTheMappedValueOrFaults :
    Rule.keepsContract 1000 1041 0 10 20 ∧ ¬ Rule.keepsContract 1000 1040 0 10 20 ∧ ¬ Rule.keepsContract 0 9 0 1 (-1) ∧
    ¬ Rule.keepsContract 0 9 1 0 0 := by
  refine ⟨?_, ?_, ?_, ?_⟩ <;> unfold Rule.keepsContract <;> decide

theorem test_witness_MapRangeObeysItsLaws :
    Rule.keepsContract 1000 2000 (-1000) 1000 499 ∧ (1499 : Int) ≤ 1500 ∧
    mapRange 1000 2000 1499 (-1000) 1000 499 = some 0 ∧ mapRange 1000 2000 2000 (-1000) 1000 499 = some 1000 ∧
    |(1999 : Int) - avg 1000 2000| ≤ 499 := by
  refine ⟨?_, ?_, ?_, ?_, ?_⟩ <;> (try unfold Rule.keepsContract) <;> decide

/-- Accepted at the bounds of every test, and refused just past each. -/
theorem test_witness_PidConfigureSetsEveryElementOrNothing :
    (0 ≤ (0 : Dword).toInt ∧ 0 < (1 : Word).toInt ∧ (0 : Dword).toInt < (1 : Dword).toInt) ∧
    (-1 : Dword).toInt < 0 ∧ (0 : Word).toInt ≤ 0 ∧ (1 : Dword).toInt ≤ (1 : Dword).toInt := by decide

theorem test_witness_PidRunMakesOneStepAndEmitsTheOutput :
    vPid1.pid.outMin.toInt ≤ vPid1.pid.outMax.toInt ∧ State.reset.pid.outMin.toInt ≤ State.reset.pid.outMax.toInt := by decide

theorem contract_running (c0 c1 c2 : Word) : Rule.tickInContract (running c0 c1 c2) := by
  show (1000 : Word).toInt + 2 * ((20 : BitVec 31).toNat : Int) < (2000 : Word).toInt
  decide

theorem contract_stabilized (c0 c1 c2 : Word) (b : Half) : Rule.tickInContract (stabilized c0 c1 c2 b) := by
  show (1000 : Word).toInt + 2 * ((20 : BitVec 31).toNat : Int) < (2000 : Word).toInt
  decide

theorem test_witness_PidOutputStaysWithinItsLimits :
    (stabilized 1750 1600 1500 0).pid.outMin.toInt ≤ (stabilized 1750 1600 1500 0).pid.outMax.toInt ∧
    (stabilized 1750 1600 1500 0).seq.loopRun = true ∧ (stabilized 1750 1600 1500 0).chan.valid = true ∧
    (stabilized 1750 1600 1500 0).seq.mode = .gyroStabilized ∧ Rule.tickInContract (stabilized 1750 1600 1500 0) ∧
    exec (.ctrlTick 0 0 100 false) (stabilized 1750 1600 1500 0) =
      .next (after (.ctrlTick 0 0 100 false) (stabilized 1750 1600 1500 0)) ∧
    exec (.pidRun 655360) vPid1 = .next (after (.pidRun 655360) vPid1) :=
  ⟨by decide, by decide, by decide, by decide, contract_stabilized _ _ _ _, next_of_isNext (by decide), next_of_isNext (by decide)⟩

theorem test_witness_FirstPidRunHasNoDerivative :
    ((stabilized 1750 1600 1500 0).pid.runCount = 0 ∧ (stabilized 1750 1600 1500 0).seq.loopRun = true ∧
      (stabilized 1750 1600 1500 0).chan.valid = true ∧ (stabilized 1750 1600 1500 0).seq.mode = .gyroStabilized ∧
      Rule.tickInContract (stabilized 1750 1600 1500 0)) ∧
    vPid1.pid.runCount = 0 ∧
    (0 ≤ (65536 : Dword).toInt ∧ 0 < (5 : Word).toInt ∧ (-65536 : Dword).toInt < (65536 : Dword).toInt) ∧
    exec (.pidConfigure 65536 0 0 .direct .nonAccumulating 5 (-65536) 65536 0) vPid1 =
      .next (after (.pidConfigure 65536 0 0 .direct .nonAccumulating 5 (-65536) 65536 0) vPid1) :=
  ⟨⟨by decide, by decide, by decide, by decide, contract_stabilized _ _ _ _⟩, by decide, by decide,
    next_of_isNext (by decide)⟩

/-- A state whose loop is out of contract by one: IN_HIGH = IN_LOW + 2 × CH_DEADBAND. -/
def outOfContract (s : State) : State := { s with loop := { s.loop with inHigh := 1040 } }

/-- A valid tick of a loop out of contract is a violation. -/
theorem violates_outOfContract {s : State} (gx gy gz : Half) (h : s.loop = refLoop) (h1 : s.seq.loopRun = true)
    (h2 : s.chan.valid = true) : Rule.violates (.ctrlTick gx gy gz false) (outOfContract s) := by
  refine ⟨gx, gy, gz, false, rfl, h1, h2, ?_, by simp⟩
  unfold Rule.tickInContract outOfContract
  rw [h]; dsimp only; decide

/-- Each of the four cases: a command that leaves RUN_COUNT, a PID run, a configure, and a violating tick. -/
theorem test_witness_RunCountReturnsToZeroOnlyByConfigure :
    exec .nop vPid1 = .next vPid1 ∧ gives (.pidRun 0) vPid1 (fun t => t.pid.runCount == 1) = true ∧
    gives (.pidConfigure 0 0 0 .direct .nonAccumulating 1 0 1 0) (after (.pidRun 0) vPid1) (fun t => t.pid.runCount == 0) =
      true ∧
    exec (.ctrlTick 0 0 0 false) (outOfContract (stabilized 1500 1500 1000 0)) =
      .next (after (.ctrlTick 0 0 0 false) (outOfContract (stabilized 1500 1500 1000 0))) ∧
    Rule.violates (.ctrlTick 0 0 0 false) (outOfContract (stabilized 1500 1500 1000 0)) ∧
    (outOfContract (stabilized 1500 1500 1000 0)).seq.mode = .gyroStabilized ∧
    (after (.ctrlTick 0 0 0 false) (outOfContract (stabilized 1500 1500 1000 0))).seq.mode = .gyroStabilized :=
  ⟨rfl, by decide, by decide, next_of_isNext (by decide), violates_outOfContract 0 0 0 rfl rfl rfl, by decide, by decide⟩

theorem test_witness_PidSetPeriodRescalesTheGains :
    1 ≤ vPid1.pid.period.toInt ∧ (0 : Word).toInt ≤ 0 ∧ (5 : Word) = vPid1.pid.period ∧ 0 < (1 : Word).toInt := by decide

/-- Each row of R164, at the bounds of the plausible widths and of the sync gap. -/
theorem test_witness_CapPeriodFollowsTheTransitionTable :
    (5001 > (decoding .seeking 0 5001).inp.syncGap.toNat ∧ Rule.isPlausible State.reset.inp 800) ∧
    ¬ Rule.isPlausible State.reset.inp 799 ∧
    (5000 ≤ (decoding .seeking 0 5000).inp.syncGap.toNat ∧ (decoding .seeking 0 5000).dec.phase = .seeking) ∧
    ((decoding .accumulating 1 2200).dec.phase = .accumulating ∧ (decoding .accumulating 1 2200).dec.index = 1 ∧
      Rule.isPlausible State.reset.inp 2200) ∧
    ((decoding .accumulating 3 800).dec.phase = .accumulating ∧ (decoding .accumulating 3 800).dec.index = 3) ∧
    ¬ Rule.isPlausible State.reset.inp 2201 := by
  unfold Rule.isPlausible; decide

theorem test_witness_OneGapAndTwoPairsCommitOneFrame :
    State.reset.inp.syncGap.toNat < (5001 : Word).toNat ∧ (2200 : Word).toNat ≤ State.reset.inp.syncGap.toNat ∧
    (800 : Word).toNat ≤ State.reset.inp.syncGap.toNat ∧
    (∀ w ∈ [(800 : Word), 2200, 800, 800, 2200], Rule.isPlausible State.reset.inp w.toNat) ∧
    (5001 : Word).toNat + (800 : Word).toNat < 2 ^ 32 := by
  refine ⟨by decide, by decide, by decide, ?_, by decide⟩
  intro w hw
  simp only [List.mem_cons, List.not_mem_nil, or_false] at hw
  rcases hw with rfl | rfl | rfl | rfl | rfl <;> (unfold Rule.isPlausible; decide)

theorem test_witness_ChannelsChangeOnlyByWholeCommits :
    exec (.capPeriod 3000 1234) (decoding .accumulating 3 1500) =
      .next (after (.capPeriod 3000 1234) (decoding .accumulating 3 1500)) ∧
    exec (.fsTick 501001 false) (running 1500 1500 1000) = .next (after (.fsTick 501001 false) (running 1500 1500 1000)) :=
  ⟨next_of_isNext (by decide), next_of_isNext (by decide)⟩

/-- Each clause: no calibration, an error, the last warm-up sample, a sample before the last, the last sample. -/
theorem test_witness_CalSampleFollowsTheStateMachine :
    State.reset.cal.Inv ∧ State.reset.cal.calState = .idle ∧
    (warming 1 1).cal.Inv ∧ (warming 1 1).cal.calState = .warmup ∧
    (accumulating 4 2 0 0 0).cal.Inv ∧ (accumulating 4 2 0 0 0).cal.calState = .accumulate ∧
    (2 : Word) + 1 ≠ 4 ∧ (accumulating 4 3 (-8) 16 (-8)).cal.Inv ∧ (3 : Word) + 1 = 4 :=
  ⟨by decide, by decide, by decide,
    by decide, by decide, by decide, by decide, by decide, by decide⟩

theorem test_witness_CalibrationEndsAtTheCountedSample :
    State.reset.cal.calState = .idle ∧ State.reset.seq.gyroFallback = false ∧ State.reset.seq.loopRun = false ∧
    (2 : Word) ≠ 0 ∧ [((1 : Half), (1 : Half), (1 : Half)), (-3, 5, -2), (-3, 5, -3)].length = (1 : Word).toNat + (2 : Word).toNat ∧
    2 < (1 : Word).toNat + (2 : Word).toNat := by decide

theorem test_witness_CalibratorRunsOncePerSession :
    exec (.calSample (-3) 5 (-3) false) (accumulating 4 3 (-8) 16 (-8)) =
      .next (after (.calSample (-3) 5 (-3) false) (accumulating 4 3 (-8) 16 (-8))) ∧
    (after (.calSample (-3) 5 (-3) false) (accumulating 4 3 (-8) 16 (-8))).cal.bias ≠ (accumulating 4 3 (-8) 16 (-8)).cal.bias ∧
    (after (.calSample (-3) 5 (-3) false) (accumulating 4 3 (-8) 16 (-8))).seq.mode = .gyroStabilized :=
  ⟨next_of_isNext (by decide), by decide, by decide⟩

/-- Elapsed TIMEOUT is not stale, TIMEOUT + 1 is. -/
theorem test_witness_FsTickChecksStalenessAndFault :
    (true = true ↔ State.reset.inp.timeout.toNat < ((500001 : Word).toNat + 2 ^ 32 - State.reset.chan.tCommit.toNat) % 2 ^ 32) ∧
    (false = true ↔ State.reset.inp.timeout.toNat < ((500000 : Word).toNat + 2 ^ 32 - State.reset.chan.tCommit.toNat) % 2 ^ 32) ∧
    (false = true ↔ true = true ∧ State.reset.inp.faultPolicy = .cutWeapon) := by decide

theorem test_witness_FailsafeTimesOutAcrossTheWrap : State.reset.inp.timeout = 500000 := by decide

/-- A weapon running under CutWeapon, and the same with the latch set. -/
def cutWeapon (latched : Bool) : State :=
  { State.reset with
    inp := { State.reset.inp with faultPolicy := .cutWeapon }
    fs := { faultIn := latched, faultLatch := latched }
    seq := { State.reset.seq with weaponEn := !latched, weaponWidth := if latched then 0 else 700 } }

/-- A running loop with the fault latched, the weapon idle, and ERR_MAP_DOMAIN set by an earlier MAP. -/
def latched : State :=
  { running 1500 1500 2000 with fs := ⟨true, true⟩, err := { State.reset.err with mapDomain := true } }

/-- Each clause; a tick in contract keeps the weapon idle also where ERR_MAP_DOMAIN was set before. -/
theorem test_witness_FaultLatchHoldsTheWeaponIdle :
    exec (.fsTick 10 true) (cutWeapon false) = .next (after (.fsTick 10 true) (cutWeapon false)) ∧
    (cutWeapon false).fs.faultLatch = false ∧ (after (.fsTick 10 true) (cutWeapon false)).fs.faultLatch = true ∧
    exec .loopStart (cutWeapon true) = .next (after .loopStart (cutWeapon true)) ∧ (cutWeapon true).fs.faultLatch = true ∧
    (cutWeapon true).seq.weaponEn = false ∧ (cutWeapon true).seq.weaponWidth = 0 ∧
    exec (.fsTick 10 true) State.reset = .next (after (.fsTick 10 true) State.reset) ∧
    (Instr.fsTick 10 true).opcode = .fsTick ∧ State.reset.inp.faultPolicy = .inert ∧
    gives (.ctrlTick 0 0 0 false) latched (fun t => t.err.mapDomain && !t.seq.weaponEn && t.seq.weaponWidth == 0) = true ∧
    Rule.violates (.ctrlTick 0 0 0 false) (outOfContract latched) ∧
    exec (.ctrlTick 0 0 0 false) (outOfContract latched) =
      .next (after (.ctrlTick 0 0 0 false) (outOfContract latched)) :=
  ⟨next_of_isNext (by decide), by decide, by decide, next_of_isNext (by decide), by decide, by decide, by decide,
    next_of_isNext (by decide), by decide, by decide, by decide, violates_outOfContract 0 0 0 rfl rfl rfl,
    next_of_isNext (by decide)⟩

theorem test_witness_LoopStartRunsUnlessCalibrating :
    exec (.ctrlTick 0 0 0 false) (running 1500 1500 1000) = .next (after (.ctrlTick 0 0 0 false) (running 1500 1500 1000)) ∧
    (running 1500 1500 1000).seq.loopRun = true ∧ (warming 1 1).cal.calState = .warmup ∧ State.reset.cal.calState = .idle :=
  ⟨next_of_isNext (by decide), by decide, by decide, by decide⟩

theorem test_witness_StoppedAndInvalidTicksAreInert :
    State.reset.seq.loopRun = false ∧
    ({ State.reset with seq := { State.reset.seq with loopRun := true } } : State).seq.loopRun = true ∧
    ({ State.reset with seq := { State.reset.seq with loopRun := true } } : State).chan.valid = false := by decide

theorem test_witness_ManualTickMixesElevatorAndAileron :
    (running 1750 1500 2000).seq.loopRun = true ∧ (running 1750 1500 2000).chan.valid = true ∧
    (running 1750 1500 2000).seq.mode = .manual ∧ Rule.tickInContract (running 1750 1500 2000) :=
  ⟨by decide, by decide, by decide, contract_running _ _ _⟩

theorem test_witness_GyroTickMixesElevatorAndPidCorrection :
    (stabilized 1750 1600 1500 3).seq.loopRun = true ∧ (stabilized 1750 1600 1500 3).chan.valid = true ∧
    (stabilized 1750 1600 1500 3).seq.mode = .gyroStabilized ∧ Rule.tickInContract (stabilized 1750 1600 1500 3) ∧
    (stabilized 1750 1600 1500 3).pid.outMin.toInt ≤ (stabilized 1750 1600 1500 3).pid.outMax.toInt :=
  ⟨by decide, by decide, by decide, contract_stabilized _ _ _ _, by decide⟩

/-- The stabilized state under each gyro-error policy. -/
def underPolicy (p : GyroErrPolicy) : State :=
  { stabilized 1500 1700 2000 0 with inp := { State.reset.inp with gyroErrPolicy := p } }

theorem test_witness_GyroErrorTickFallsBack :
    ∀ p ∈ [GyroErrPolicy.manualThisTick, .neutralThisTick],
      (underPolicy p).seq.loopRun = true ∧ (underPolicy p).chan.valid = true ∧ (underPolicy p).seq.mode = .gyroStabilized ∧
      (underPolicy p).inp.gyroErrPolicy = p := by decide

theorem test_witness_GyroFallbackLastsTheSession :
    (stabilized 1500 1700 2000 0).cal.calState = .done ∧ (stabilized 1500 1700 2000 0).seq.loopRun = true ∧
    (stabilized 1500 1700 2000 0).chan.valid = true ∧ (stabilized 1500 1700 2000 0).seq.mode = .gyroStabilized ∧
    exec (.ctrlTick 0 0 0 true) (stabilized 1500 1700 2000 0) = .next (after (.ctrlTick 0 0 0 true) (stabilized 1500 1700 2000 0)) ∧
    execAll [.ctrlTick 0 0 0 false, .calStart 0 1] (after (.ctrlTick 0 0 0 true) (stabilized 1500 1700 2000 0)) =
      .next (nextOf (execAll [.ctrlTick 0 0 0 false, .calStart 0 1] (after (.ctrlTick 0 0 0 true) (stabilized 1500 1700 2000 0)))) :=
  ⟨by decide, by decide, by decide, by decide, next_of_isNext (by decide), next_of_isNext (by decide)⟩

/-- The three ways out of a violation: maps in contract, no valid channels, a neutral fallback out of contract. -/
theorem test_witness_TickOutputsStayContained :
    (running 2200 800 2200).seq.loopRun = true ∧ ¬ Rule.violates (.ctrlTick 0 0 0 false) (running 2200 800 2200) ∧
    exec (.ctrlTick 0 0 0 false) (running 2200 800 2200) = .next (after (.ctrlTick 0 0 0 false) (running 2200 800 2200)) ∧
    ({ State.reset with seq := { State.reset.seq with loopRun := true } } : State).chan.valid = false ∧
    ¬ Rule.violates (.ctrlTick 0 0 0 true) (outOfContract (underPolicy .neutralThisTick)) ∧
    gives (.ctrlTick 0 0 0 true) (outOfContract (underPolicy .neutralThisTick)) (fun t => !t.err.mapDomain) = true := by
  refine ⟨by decide, ?_, next_of_isNext (by decide), by decide, ?_, by decide⟩
  · rintro ⟨_, _, _, _, _, _, _, h, _⟩
    exact h (contract_running _ _ _)
  · rintro ⟨_, _, _, g, hi, _, _, _, h⟩
    injection hi with _ _ _ hg
    exact h ⟨rfl, hg.symm, rfl⟩

/-- A fallen-back state with an event to come, and the two ways into one. -/
theorem test_witness_EveryStepKeepsTheFallback :
    (∀ rest, ((after (.ctrlTick 0 0 0 true) (stabilized 1500 1700 2000 0)).offer .gyr ⟨0x51, [0, 0, 0, 0]⟩).env.schedule ≠
      .rst true :: rest) ∧
    Rule.fallenBack ((after (.ctrlTick 0 0 0 true) (stabilized 1500 1700 2000 0)).offer .gyr ⟨0x51, [0, 0, 0, 0]⟩) ∧
    isNext (step ((after (.ctrlTick 0 0 0 true) (stabilized 1500 1700 2000 0)).offer .gyr ⟨0x51, [0, 0, 0, 0]⟩)) = true ∧
    (stabilized 1500 1700 2000 0).cal.calState = .done ∧ (stabilized 1500 1700 2000 0).seq.mode = .gyroStabilized ∧
    (warming 1 1).cal.calState = .warmup ∧ isNext (exec (.calSample 0 0 0 true) (warming 1 1)) = true :=
  ⟨fun rest h => by simp [State.offer, State.setSchedule] at h, ⟨by decide, by decide, .inl (by decide)⟩, by decide,
    by decide, by decide, by decide, by decide⟩

theorem test_witness_ViolatingTickLeavesOnlyItsOutputsOpen :
    (outOfContract (running 1500 1500 1000)).seq.loopRun = true ∧ (outOfContract (running 1500 1500 1000)).chan.valid = true ∧
    ¬ Rule.tickInContract (outOfContract (running 1500 1500 1000)) ∧
    (outOfContract (stabilized 1500 1500 1000 0)).seq.mode = .gyroStabilized ∧
    ¬ Rule.tickInContract (outOfContract (stabilized 1500 1500 1000 0)) ∧
    (outOfContract (stabilized 1500 1500 1000 0)).inp.gyroErrPolicy = .manualThisTick := by
  refine ⟨by decide, by decide, ?_, by decide, ?_, by decide⟩ <;> unfold Rule.tickInContract <;> decide

theorem test_witness_CenteredFrameThenManualTickIsStill :
    (running 0 0 0).inp.syncGap = 5000 ∧ (running 0 0 0).inp.pulseMin = 800 ∧ (running 0 0 0).inp.pulseMax = 2200 ∧
    (running 0 0 0).inp.recenter = false ∧ (running 0 0 0).loop.inLow = 1000 ∧ (running 0 0 0).loop.inHigh = 2000 ∧
    (running 0 0 0).loop.chDeadband.toNat < 500 ∧ (running 0 0 0).seq.loopRun = true ∧ (running 0 0 0).seq.mode = .manual := by
  decide

theorem test_witness_NopChangesNothing : (encode .nop).word0 = 0 := by decide

theorem test_witness_RegReadEmitsTheRegisterOrZero :
    Rule.isUnmapped 0x7C ∧ Rule.isUnmapped 0xFC ∧ ¬ Rule.isUnmapped 0x00 ∧ ¬ Rule.isUnmapped 0xD0 := by
  unfold Rule.isUnmapped; decide

theorem test_witness_RegWriteReachesOnlyWritableRegisters :
    Rule.isWritable 0x28 ∧ Rule.isWritable 0x58 ∧ ¬ Rule.isWritable 0x24 ∧ ¬ Rule.isWritable 0x5C ∧ ¬ Rule.isWritable 0x29 := by
  unfold Rule.isWritable; decide

theorem test_witness_WrittenRegisterReadsBackMasked : Rule.isWritable 0x28 ∧ Rule.isWritable 0x58 := by
  unfold Rule.isWritable; decide

/-- Some command completes and changes each element that a clause speaks of. -/
theorem test_witness_ElementsChangeOnlyByTheirListedWriters :
    gives (.capWidth 6000) State.reset (fun t => t.dec.negWidth != State.reset.dec.negWidth) = true ∧
    gives (.capPeriod 7500 1) (decoding .seeking 0 6000) (fun t => t.dec != (decoding .seeking 0 6000).dec) = true ∧
    gives (.capPeriod 3000 1) (decoding .accumulating 3 1500) (fun t => t.chan.valid && t.ind.frameInd) = true ∧
    gives (.fsTick 501001 true) (cutWeapon false) (fun t => t.ind.losInd && t.fs.faultIn && !t.seq.weaponEn) = true ∧
    gives (.ctrlTick 0 0 0 false) (running 1750 1500 2000) (fun t => t.ind.loopInd && t.seq.driveLeft != 0) = true ∧
    gives .loopStart State.reset (fun t => t.seq.loopRun) = true ∧
    gives (.ctrlTick 0 0 0 true) (stabilized 1500 1500 1000 0) (fun t => t.seq.gyroFallback && t.seq.mode == .manual) = true ∧
    gives (.calStart 1 1) State.reset (fun t => t.cal != State.reset.cal) = true ∧
    gives (.regWrite 0x4C 1) State.reset (fun t => t.loop != State.reset.loop) = true ∧
    gives (.calSample 1 2 3 false) (accumulating 1 0 0 0 0) (fun t => t.cal.bias == #v[1, 2, 3]) = true ∧
    gives (.pidSetSetpoint 1) State.reset (fun t => t.pid.setpoint == 1) = true ∧
    gives (.pidSetLimits 1 2) State.reset (fun t => t.pid.outMax == 2) = true ∧
    gives (.pidSetPeriod 10) vPid1 (fun t => t.pid.zi != vPid1.pid.zi && t.pid.zd != vPid1.pid.zd) = true ∧
    gives (.pidConfigure 1 0 0 .reverse .accumulating 1 0 1 0) State.reset (fun t => t.pid.zp == -1) = true ∧
    gives (.pidRun 1) vPid1 (fun t => t.pid.prevMeas == 1) = true ∧
    gives (.regRead 0x5C) State.reset (fun t => t.err.badReg) = true ∧
    gives (.map 0 0 0 0 0 0) State.reset (fun t => t.err.mapDomain) = true := by decide

theorem test_witness_ErrorBitsAreStickyAndSetOneAtATime :
    runFrame ⟨0x99, []⟩ { State.reset with err := ⟨true, true, true⟩ } =
      .next (nextOf (runFrame ⟨0x99, []⟩ { State.reset with err := ⟨true, true, true⟩ })) := next_of_isNext (by decide)

theorem test_witness_CommandsEmitTheirNumberOfWords :
    exec (.map 0 0 0 0 0 0) State.reset = .next (after (.map 0 0 0 0 0 0) State.reset) ∧
    exec (.pidRun 0) State.reset = .next (after (.pidRun 0) State.reset) ∧
    exec .nop State.reset = .next (after .nop State.reset) :=
  ⟨next_of_isNext (by decide), next_of_isNext (by decide), next_of_isNext (by decide)⟩

end Sys2Proof.Tests
end

section
/-! SUPPORT. What a completed command can leave, said once over all nineteen commands, and from it what can happen to each
group of elements of R21 to R30. -/

namespace Sys2Proof.StateProofs

open Sys2Proof.Machine Sys2Proof.Laws

/-! Inversion of the meanings that Laws/Meaning.lean does not treat. -/

section Meanings

variable {s t : State}

theorem execPidConfigure_cases {kp ki kd lo hi sp : Dword} {dir : Direction} {omode : OutputMode} {per : Word}
    (h : execPidConfigure kp ki kd dir omode per lo hi sp s = .next t) :
    t = s ∨ t = { s with pid := PidState.configured kp ki kd dir omode per lo hi sp } := by
  unfold execPidConfigure at h
  split at h <;> cases h
  · exact .inl rfl
  · exact .inr rfl

theorem execPidSetLimits_cases {lo hi : Dword} (h : execPidSetLimits lo hi s = .next t) :
    t = s ∨ t = { s with pid := { s.pid with outMin := lo, outMax := hi } } := by
  unfold execPidSetLimits at h
  split at h <;> cases h
  · exact .inl rfl
  · exact .inr rfl

theorem execPidSetPeriod_cases {per : Word} (h : execPidSetPeriod per s = .next t) :
    t = s ∨ ∃ zi zd, t = { s with pid := { s.pid with zi := zi, zd := zd, period := per } } := by
  unfold execPidSetPeriod at h
  split at h
  · cases h; exact .inl rfl
  · split at h <;> cases h
    exact .inr ⟨_, _, rfl⟩

theorem execCalStart_cases {warmup n : Word} (h : execCalStart warmup n s = .next t) :
    t = s ∨ (calStartRefused n s = false ∧ ∃ c, t = { s with cal := c } ∧ c.bias = s.cal.bias) := by
  unfold execCalStart at h
  split at h <;> cases h
  · exact .inl rfl
  · rename_i haccepted; exact .inr ⟨Bool.eq_false_of_not_eq_true haccepted, _, rfl, rfl⟩

theorem execLoopStart_cases (h : execLoopStart s = .next t) :
    t = s ∨ t = { s with seq := { s.seq with loopRun := true } } := by
  unfold execLoopStart at h
  split at h <;> cases h
  · exact .inl rfl
  · exact .inr rfl

theorem execMap_cases {inLow inHigh inValue outLow outHigh deadband : Word}
    (h : execMap inLow inHigh inValue outLow outHigh deadband s = .next t) :
    (∃ w, t = s.emit [w]) ∨ t = (s.raise .mapDomain).emitFree := by
  unfold execMap at h
  split at h <;> cases h
  · exact .inl ⟨_, rfl⟩
  · exact .inr rfl

theorem execRegRead_cases {a : RegAddr} (h : execRegRead a s = .next t) :
    (∃ w, t = s.emit [w]) ∨ t = (s.emit [0]).raise .badReg := by
  unfold execRegRead at h
  split at h <;> cases h
  · exact .inr rfl
  · exact .inl ⟨_, rfl⟩

/-- A commit ends an accumulating frame: INDEX 5 is reached from no other phase (R161, R164). -/
theorem onPeriod_complete {d e : PulseAccumulator} {cfg : InputConfig} {p : Word} (h : d.onPeriod cfg p = some e)
    (hp : e.phase = .accumulating) (hi : e.index = 5) : d.phase = .accumulating := by
  obtain ⟨-, ⟨hs, -⟩ | ⟨-, h1⟩ | ⟨ha, -⟩ | ⟨hs, rfl⟩⟩ := onPeriod_cases h
  · rw [hs] at hp; cases hp
  · rw [h1] at hi; exact absurd hi (by decide)
  · exact ha
  · exact hp

/-- A tick out of contract, in the words of the model and in those of R236. -/
theorem violates_of_tickViolates {gerr : Bool} (gx gy gz : Half) (hrun : s.seq.loopRun = true)
    (h : tickViolates s gerr) : Rule.violates (.ctrlTick gx gy gz gerr) s := by
  obtain ⟨hvalid, hcontract, hneutral⟩ := h
  refine ⟨gx, gy, gz, gerr, rfl, hrun, hvalid, fun hin => ?_, hneutral⟩
  rw [(contractHolds_iff s.loop).2 hin] at hcontract
  cases hcontract

end Meanings

/-! The effect of a command. -/

/-- What a tick `i` of a running loop leaves in the sequencer and in the PID (R231, R236). -/
structure TickLeaves (i : Instr) (s : State) (q : ControlSequencer) (p : PidState) : Prop where
  loopRun : q.loopRun = s.seq.loopRun
  mode : (q.mode = s.seq.mode ∧ q.gyroFallback = s.seq.gyroFallback) ∨
    (s.seq.mode = .gyroStabilized ∧ q.mode = .manual ∧ q.gyroFallback = true)
  weapon : s.fs.faultLatch = true → (q.weaponEn = false ∧ q.weaponWidth = 0) ∨ Rule.violates i s
  gains : p.zp = s.pid.zp ∧ p.zi = s.pid.zi ∧ p.zd = s.pid.zd
  settings : p.dir = s.pid.dir ∧ p.omode = s.pid.omode ∧ p.period = s.pid.period
  limits : p.outMin = s.pid.outMin ∧ p.outMax = s.pid.outMax
  runCount : p.runCount = s.pid.runCount ∨ p.runCount = satinc 32 s.pid.runCount ∨
    (Rule.violates i s ∧ s.seq.mode = .gyroStabilized ∧ q.mode = .gyroStabilized)

/-- The commands that put words on the response port (R88). -/
def answering : List Opcode := [.map, .avg, .sign, .negabs, .regRead, .pidRun]

/-- The states that a completed command can leave, one constructor per way to complete. -/
inductive Effect (s : State) : Instr → State → Prop
  /-- NOP, and every command that is ignored or refused. -/
  | unchanged (i : Instr) (hi : i.opcode ∉ answering) : Effect s i s
  /-- A command that only answers, with one word. -/
  | answer (i : Instr) (w : Word) (hi : i.opcode ∈ answering) (hone : i.opcode ≠ .pidRun) : Effect s i (s.emit [w])
  /-- A MAP out of contract (R101). -/
  | mapViolation (il ih v ol oh db : Word) : Effect s (.map il ih v ol oh db) (s.raise .mapDomain).emitFree
  /-- A REG_READ of no register (R64). -/
  | badRead (a : RegAddr) : Effect s (.regRead a) ((s.emit [0]).raise .badReg)
  /-- A REG_WRITE of no writable register (R64). -/
  | badWrite (a : RegAddr) (v : Word) : Effect s (.regWrite a v) (s.raise .badReg)
  /-- A REG_WRITE of the configuration (R262). -/
  | write (a : RegAddr) (v : Word) (c : InputConfig) (l : LoopConfig) :
      Effect s (.regWrite a v) { s with inp := c, loop := l }
  /-- CAP_WIDTH (R160). -/
  | lowWidth (w : Word) : Effect s (.capWidth w) { s with dec := { s.dec with negWidth := w } }
  /-- A CAP_PERIOD that completes no frame (R161). -/
  | period (p now : Word) (d : PulseAccumulator) (hd : s.dec.onPeriod s.inp p = some d) :
      Effect s (.capPeriod p now) { s with dec := d }
  /-- A CAP_PERIOD that completes a frame (R161, R163). -/
  | commit (p now : Word) (d : PulseAccumulator) (hd : s.dec.onPeriod s.inp p = some d)
      (hphase : s.dec.phase = .accumulating) : Effect s (.capPeriod p now) (State.commit { s with dec := d } now)
  /-- FS_TICK with its two duties (R211). -/
  | failsafe (now : Word) (fault stale cut : Bool) (hcut : cut = true → fault = true ∧ s.inp.faultPolicy = .cutWeapon) :
      Effect s (.fsTick now fault) { s with
        chan := { s.chan with valid := if stale then false else s.chan.valid }
        ind := { s.ind with losInd := if stale then true else s.ind.losInd }
        fs := { faultIn := fault, faultLatch := if cut then true else s.fs.faultLatch }
        seq := { s.seq with weaponWidth := if cut then 0 else s.seq.weaponWidth
                            weaponEn := if cut then false else s.seq.weaponEn } }
  /-- PID_CONFIGURE accepted (R130). -/
  | configure (kp ki kd : Dword) (dir : Direction) (omode : OutputMode) (per : Word) (lo hi sp : Dword) :
      Effect s (.pidConfigure kp ki kd dir omode per lo hi sp)
        { s with pid := PidState.configured kp ki kd dir omode per lo hi sp }
  /-- PID_RUN (R131). -/
  | pidRun (meas out : Dword) :
      Effect s (.pidRun meas) ({ s with pid := s.pid.stepped (sval meas) }.emit (wordsOf out))
  /-- PID_SET_LIMITS accepted (R132). -/
  | limits (lo hi : Dword) : Effect s (.pidSetLimits lo hi) { s with pid := { s.pid with outMin := lo, outMax := hi } }
  /-- PID_SET_PERIOD accepted (R133). -/
  | retune (per : Word) (zi zd : Dword) :
      Effect s (.pidSetPeriod per) { s with pid := { s.pid with zi := zi, zd := zd, period := per } }
  /-- PID_SET_SETPOINT (R134). -/
  | setpoint (sp : Dword) : Effect s (.pidSetSetpoint sp) { s with pid := { s.pid with setpoint := sp } }
  /-- CAL_START accepted (R190). -/
  | calStart (warmup n : Word) (c : CalibratorState) (haccepted : calStartRefused n s = false)
      (hbias : c.bias = s.cal.bias) :
      Effect s (.calStart warmup n) { s with cal := c }
  /-- A CAL_SAMPLE of a running calibration (R191). -/
  | calSample (x y z : Half) (err : Bool) (c : CalibratorState) (m : ControlMode) (g : Bool)
      (hrunning : s.cal.calState = .warmup ∨ s.cal.calState = .accumulate) (hn : c.calN = s.cal.calN) :
      Effect s (.calSample x y z err) { s with cal := c, seq := { s.seq with mode := m, gyroFallback := g } }
  /-- LOOP_START accepted (R230). -/
  | loopStart : Effect s .loopStart { s with seq := { s.seq with loopRun := true } }
  /-- A CTRL_TICK of a running loop (R231). -/
  | tick (gx gy gz : Half) (gerr : Bool) (q : ControlSequencer) (p : PidState) (md : Bool) (k : Nat)
      (h : TickLeaves (.ctrlTick gx gy gz gerr) s q p) (hmd : md = s.err.mapDomain ∨ md = true) :
      Effect s (.ctrlTick gx gy gz gerr) { s with
        ind := { s.ind with loopInd := !s.ind.loopInd }, seq := q, pid := p, err := { s.err with mapDomain := md }
        free := k }

section

variable {i : Instr} {s t : State}

theorem calSample_effect {x y z : Half} {err : Bool} (h : execCalSample x y z err s = .next t) :
    Effect s (.calSample x y z err) t := by
  obtain rfl | ⟨hr, rfl⟩ | ⟨r, hr, rfl⟩ | ⟨sums, cnt, hr, rfl⟩ | ⟨sums, cnt, b, hr, rfl⟩ := execCalSample_cases h
  · exact .unchanged _ (by simp [Instr.opcode, answering])
  · exact .calSample _ _ _ _ _ _ _ hr rfl
  · exact .calSample _ _ _ _ _ s.seq.mode s.seq.gyroFallback (.inl hr) rfl
  · exact .calSample _ _ _ _ _ s.seq.mode s.seq.gyroFallback (.inr hr) rfl
  · exact .calSample _ _ _ _ _ .gyroStabilized s.seq.gyroFallback (.inr hr) rfl

theorem ctrlTick_effect {gx gy gz : Half} {gerr : Bool} (h : execCtrlTick gx gy gz gerr s = .next t) :
    Effect s (.ctrlTick gx gy gz gerr) t := by
  obtain ⟨-, rfl⟩ | ⟨hrun, m, g, l, r, w, e, p, md, k, rfl, hmode, hweapon, hkept, hcount⟩ := execCtrlTick_cases h
  · exact .unchanged _ (by simp [Instr.opcode, answering])
  have violates := violates_of_tickViolates gx gy gz hrun (gerr := gerr)
  obtain ⟨hmin, hmax, hper, hzp, hzi, hzd, hdir, homode⟩ := hkept
  refine .tick _ _ _ _ _ _ _ _
    ⟨rfl, hmode.imp_right fun ⟨hgyro, hm, hg, _⟩ => ⟨hgyro, hm, hg⟩, fun hlatch => ?_, ⟨hzp, hzi, hzd⟩,
      ⟨hdir, homode, hper⟩, ⟨hmin, hmax⟩, ?_⟩ (hweapon.imp And.left And.left)
  · obtain ⟨-, -, hidle⟩ | ⟨-, hv⟩ := hweapon
    · exact .inl (hidle hlatch).symm
    · exact .inr (violates hv)
  · obtain hstay | hup | ⟨hv, hgyro, hgerr⟩ := hcount
    · exact .inl hstay
    · exact .inr (.inl hup)
    · obtain ⟨hm, -⟩ | ⟨-, -, -, herr, -⟩ := hmode
      · exact .inr (.inr ⟨violates hv, hgyro, hm.trans hgyro⟩)
      · rw [hgerr] at herr; cases herr

/-- Every command that completes has one of the effects. -/
theorem exec_effect (h : exec i s = .next t) : Effect s i t := by
  cases i with
  | nop => cases h; exact .unchanged _ (by simp [Instr.opcode, answering])
  | capWidth w => cases h; exact .lowWidth w
  | capPeriod p now =>
    obtain ⟨d, hd, ⟨rfl, -⟩ | ⟨rfl, hp, hi⟩⟩ := execCapPeriod_cases h
    · exact .period p now d hd
    · exact .commit p now d hd (onPeriod_complete hd hp hi)
  | fsTick now fault =>
    obtain ⟨stale, cut, -, hcut, rfl⟩ := execFsTick_cases h
    exact .failsafe now fault stale cut hcut.1
  | map il ih v ol oh db =>
    obtain ⟨w, rfl⟩ | rfl := execMap_cases h
    · exact .answer _ w (by simp [Instr.opcode, answering]) (by simp [Instr.opcode])
    · exact .mapViolation ..
  | avg | sign | negabs => cases h; exact .answer _ _ (by simp [Instr.opcode, answering]) (by simp [Instr.opcode])
  | pidConfigure kp ki kd dir omode per lo hi sp =>
    obtain rfl | rfl := execPidConfigure_cases h
    · exact .unchanged _ (by simp [Instr.opcode, answering])
    · exact .configure ..
  | pidRun meas => cases h; exact .pidRun meas _
  | pidSetLimits lo hi =>
    obtain rfl | rfl := execPidSetLimits_cases h
    · exact .unchanged _ (by simp [Instr.opcode, answering])
    · exact .limits lo hi
  | pidSetPeriod per =>
    obtain rfl | ⟨zi, zd, rfl⟩ := execPidSetPeriod_cases h
    · exact .unchanged _ (by simp [Instr.opcode, answering])
    · exact .retune per zi zd
  | pidSetSetpoint sp => cases h; exact .setpoint sp
  | calStart warmup n =>
    obtain rfl | ⟨haccepted, c, rfl, hbias⟩ := execCalStart_cases h
    · exact .unchanged _ (by simp [Instr.opcode, answering])
    · exact .calStart warmup n c haccepted hbias
  | calSample => exact calSample_effect h
  | loopStart =>
    obtain rfl | rfl := execLoopStart_cases h
    · exact .unchanged _ (by simp [Instr.opcode, answering])
    · exact .loopStart
  | ctrlTick => exact ctrlTick_effect h
  | regRead a =>
    obtain ⟨w, rfl⟩ | rfl := execRegRead_cases h
    · exact .answer _ w (by simp [Instr.opcode, answering]) (by simp [Instr.opcode])
    · exact .badRead a
  | regWrite a v =>
    obtain rfl | ⟨c, l, rfl⟩ := execRegWrite_cases h
    · exact .badWrite a v
    · exact .write a v c l

end

end Sys2Proof.StateProofs
end

section
/-! The statements over every command. -/

namespace Sys2Proof.StateProofs

open Sys2Proof.Machine Sys2Proof.Laws

section

variable {i : Instr} {s t : State}

/-! ChannelState and RUN_COUNT. -/

/-- ChannelState stays, loses VALID, or is replaced whole by a commit (R163, R211). -/
theorem chan_of_effect (h : Effect s i t) :
    t.chan = s.chan ∨
    (i.opcode = .fsTick ∧ t.chan = { s.chan with valid := false }) ∨
    ∃ p now, i = .capPeriod p now ∧ s.dec.phase = .accumulating ∧
      t.chan = { ch := t.dec.buf, valid := true, tCommit := now, frameSeq := s.chan.frameSeq + 1 } ∧
      t.ind = { s.ind with frameInd := !s.ind.frameInd, losInd := false } := by
  cases h with
  | failsafe now fault stale cut =>
    cases stale
    · exact .inl rfl
    · exact .inr (.inl ⟨rfl, rfl⟩)
  | commit p now d hd hphase => exact .inr (.inr ⟨p, now, rfl, hphase, rfl, rfl⟩)
  | _ => exact .inl rfl

/-- RUN_COUNT stays, counts up, is cleared, or is left open by a violating tick (R130, R131, R236). -/
theorem runCount_of_effect (h : Effect s i t) :
    t.pid.runCount = s.pid.runCount ∨
    (i.opcode ∈ [.pidRun, .ctrlTick] ∧ t.pid.runCount = satinc 32 s.pid.runCount) ∨
    (i.opcode = .pidConfigure ∧ t.pid.runCount = 0) ∨
    (Rule.violates i s ∧ s.seq.mode = .gyroStabilized ∧ t.seq.mode = .gyroStabilized) := by
  cases h with
  | configure => exact .inr (.inr (.inl ⟨rfl, rfl⟩))
  | pidRun => exact .inr (.inl ⟨by simp [Instr.opcode], rfl⟩)
  | tick gx gy gz gerr q p md k h hmd =>
    obtain hstay | hup | hopen := h.runCount
    · exact .inl hstay
    · exact .inr (.inl ⟨by simp [Instr.opcode], hup⟩)
    · exact .inr (.inr (.inr hopen))
  | _ => exact .inl rfl

/-! FAULT_LATCH and the weapon outputs. -/

/-- FAULT_LATCH stays, or is set by an FS_TICK that cuts the weapon (R211). -/
theorem faultLatch_of_effect (h : Effect s i t) :
    t.fs.faultLatch = s.fs.faultLatch ∨
    (t.fs.faultLatch = true ∧
      ∃ now, i = .fsTick now true ∧ s.inp.faultPolicy = .cutWeapon ∧ t.seq.weaponEn = false ∧ t.seq.weaponWidth = 0) := by
  cases h with
  | failsafe now fault stale cut hcut =>
    cases cut
    · exact .inl rfl
    · obtain ⟨rfl, hpolicy⟩ := hcut rfl
      exact .inr ⟨rfl, now, rfl, hpolicy, rfl, rfl⟩
  | _ => exact .inl rfl

/-- Under the latch an idle weapon stays idle, but for a violating tick (R215, R236). -/
theorem weaponIdle_of_effect (h : Effect s i t) (hlatch : s.fs.faultLatch = true)
    (hen : s.seq.weaponEn = false) (hwidth : s.seq.weaponWidth = 0) :
    (t.seq.weaponEn = false ∧ t.seq.weaponWidth = 0) ∨ Rule.violates i s := by
  cases h with
  | failsafe now fault stale cut =>
    cases cut
    · exact .inl ⟨hen, hwidth⟩
    · exact .inl ⟨rfl, rfl⟩
  | tick gx gy gz gerr q p md k h hmd => exact h.weapon hlatch
  | _ => exact .inl ⟨hen, hwidth⟩

/-- The weapon outputs change only by a tick, and by an FS_TICK under CutWeapon (R211, R231). -/
theorem weapon_writers (h : Effect s i t) :
    t.seq.weaponWidth ≠ s.seq.weaponWidth ∨ t.seq.weaponEn ≠ s.seq.weaponEn →
      i.opcode = .ctrlTick ∨ (i.opcode = .fsTick ∧ s.inp.faultPolicy = .cutWeapon) := by
  cases h with
  | failsafe now fault stale cut hcut =>
    cases cut
    · simp
    · exact fun _ => .inr ⟨rfl, (hcut rfl).2⟩
  | tick => exact fun _ => .inl rfl
  | _ => simp

/-! The other "written by" columns. -/

/-- The written-by column of R21. -/
theorem dec_writers (h : Effect s i t) :
    (t.dec.negWidth ≠ s.dec.negWidth → i.opcode = .capWidth) ∧
    ({ t.dec with negWidth := s.dec.negWidth } ≠ s.dec → i.opcode = .capPeriod) := by
  cases h with
  | lowWidth => exact ⟨fun _ => rfl, absurd rfl⟩
  | period p now d hd => exact ⟨absurd (onPeriod_negWidth hd), fun _ => rfl⟩
  | commit p now d hd =>
    have hneg := onPeriod_negWidth hd
    exact ⟨absurd hneg, fun _ => rfl⟩
  | _ => exact ⟨absurd rfl, absurd rfl⟩

/-- The written-by column of R22. -/
theorem chan_writers (h : Effect s i t) :
    (t.chan.ch ≠ s.chan.ch ∨ t.chan.tCommit ≠ s.chan.tCommit ∨ t.chan.frameSeq ≠ s.chan.frameSeq →
      i.opcode = .capPeriod) ∧
    (s.chan.valid = false → t.chan.valid = true → i.opcode = .capPeriod) ∧
    (s.chan.valid = true → t.chan.valid = false → i.opcode = .fsTick) := by
  obtain hstay | ⟨hfs, hlost⟩ | ⟨p, now, rfl, -, hcommit, -⟩ := chan_of_effect h
  · simp +contextual [hstay]
  · simp [hlost, hfs]
  · simp [hcommit, Instr.opcode]

/-- The written-by column of R23. -/
theorem ind_writers (h : Effect s i t) :
    (t.ind.frameInd ≠ s.ind.frameInd → i.opcode = .capPeriod) ∧
    (s.ind.losInd = false → t.ind.losInd = true → i.opcode = .fsTick) ∧
    (s.ind.losInd = true → t.ind.losInd = false → i.opcode = .capPeriod) ∧
    (t.ind.loopInd ≠ s.ind.loopInd → i.opcode = .ctrlTick) := by
  cases h with
  | commit => simp [State.commit, Instr.opcode]
  | failsafe now fault stale => cases stale <;> simp +contextual [Instr.opcode]
  | tick => simp +contextual [Instr.opcode]
  | _ => simp +contextual

/-- The written-by column of R24, but for the weapon outputs. -/
theorem seq_writers (h : Effect s i t) :
    (t.seq.loopRun ≠ s.seq.loopRun → i.opcode = .loopStart) ∧
    (t.seq.mode ≠ s.seq.mode ∨ t.seq.gyroFallback ≠ s.seq.gyroFallback → i.opcode ∈ [.calSample, .ctrlTick]) ∧
    (t.seq.driveLeft ≠ s.seq.driveLeft ∨ t.seq.driveRight ≠ s.seq.driveRight → i.opcode = .ctrlTick) := by
  cases h with
  | loopStart => simp [Instr.opcode]
  | calSample => simp [Instr.opcode]
  | tick gx gy gz gerr q p md k h hmd => simp [Instr.opcode, h.loopRun]
  | _ => simp

/-- The written-by column of R25. -/
theorem fs_writers (h : Effect s i t) :
    (t.fs.faultIn ≠ s.fs.faultIn → i.opcode = .fsTick) ∧
    (t.fs.faultLatch ≠ s.fs.faultLatch → i.opcode = .fsTick ∧ s.inp.faultPolicy = .cutWeapon) := by
  constructor
  · cases h with
    | failsafe => exact fun _ => rfl
    | _ => exact absurd rfl
  · intro hne
    obtain hstay | ⟨-, now, rfl, hpolicy, -⟩ := faultLatch_of_effect h
    · exact absurd hstay hne
    · exact ⟨rfl, hpolicy⟩

/-- The written-by column of R26. -/
theorem cal_writers (h : Effect s i t) :
    (t.cal.calState ≠ s.cal.calState ∨ t.cal.calRem ≠ s.cal.calRem ∨ t.cal.calCnt ≠ s.cal.calCnt ∨
      t.cal.calSum ≠ s.cal.calSum → i.opcode ∈ [.calStart, .calSample]) ∧
    (t.cal.calN ≠ s.cal.calN → i.opcode = .calStart) ∧
    (t.cal.bias ≠ s.cal.bias → i.opcode = .calSample) := by
  cases h with
  | calStart warmup n c haccepted hbias => simp [Instr.opcode, hbias]
  | calSample x y z err c m g hrunning hn => simp [Instr.opcode, hn]
  | _ => simp

/-- The written-by column of R27 and R28. -/
theorem config_writers (h : Effect s i t) : t.inp ≠ s.inp ∨ t.loop ≠ s.loop → i.opcode = .regWrite := by
  cases h with
  | write => exact fun _ => rfl
  | _ => simp

/-- The written-by column of R29. -/
theorem pid_writers (h : Effect s i t) :
    (t.pid.zp ≠ s.pid.zp ∨ t.pid.dir ≠ s.pid.dir ∨ t.pid.omode ≠ s.pid.omode → i.opcode = .pidConfigure) ∧
    (t.pid.zi ≠ s.pid.zi ∨ t.pid.zd ≠ s.pid.zd ∨ t.pid.period ≠ s.pid.period →
      i.opcode ∈ [.pidConfigure, .pidSetPeriod]) ∧
    (t.pid.outMin ≠ s.pid.outMin ∨ t.pid.outMax ≠ s.pid.outMax → i.opcode ∈ [.pidConfigure, .pidSetLimits]) ∧
    (t.pid.setpoint ≠ s.pid.setpoint → i.opcode ∈ [.pidConfigure, .pidSetSetpoint, .ctrlTick]) ∧
    (t.pid.integral ≠ s.pid.integral ∨ t.pid.prevMeas ≠ s.pid.prevMeas ∨ t.pid.prevOut ≠ s.pid.prevOut ∨
      t.pid.runCount ≠ s.pid.runCount → i.opcode ∈ [.pidConfigure, .pidRun, .ctrlTick]) := by
  cases h with
  | configure => simp [Instr.opcode]
  | pidRun => simp [Instr.opcode, PidState.stepped]
  | limits => simp [Instr.opcode]
  | retune => simp [Instr.opcode]
  | setpoint => simp [Instr.opcode]
  | tick gx gy gz gerr q p md k h hmd => simp [Instr.opcode, h.gains, h.settings, h.limits]
  | _ => simp

/-- The written-by column of R30. No command that decodes sets ERR_ILLEGAL_OP. -/
theorem err_writers (h : Effect s i t) :
    t.err.illegalOp = s.err.illegalOp ∧
    (t.err.badReg ≠ s.err.badReg → i.opcode ∈ [.regRead, .regWrite]) ∧
    (t.err.mapDomain ≠ s.err.mapDomain → i.opcode ∈ [.map, .ctrlTick]) := by
  cases h with
  | mapViolation => simp [Instr.opcode]
  | badRead => simp [Instr.opcode]
  | badWrite => simp [Instr.opcode]
  | tick => simp [Instr.opcode]
  | _ => simp

/-- The environment is not the block's: no command touches it. -/
theorem env_of_effect (h : Effect s i t) : t.env = s.env := by
  cases h <;> rfl

end

/-- Settles O25. -/
theorem runCountReturnsToZeroOnlyByConfigure : Obligations.RunCountReturnsToZeroOnlyByConfigure := by
  intro i s t h
  refine (runCount_of_effect (exec_effect h)).imp_right (Or.imp_left fun ⟨hi, hup⟩ => ⟨hi, ?_⟩)
  rw [hup, satinc32_toNat]

/-- Settles O32. -/
theorem channelsChangeOnlyByWholeCommits : Obligations.ChannelsChangeOnlyByWholeCommits :=
  fun _ _ _ h => chan_of_effect (exec_effect h)

/-- Settles O39. -/
theorem faultLatchHoldsTheWeaponIdle : Obligations.FaultLatchHoldsTheWeaponIdle := by
  intro i s t h
  have he := exec_effect h
  have hlatch := faultLatch_of_effect he
  refine ⟨fun hset => ?_, fun hclear hset => ?_, weaponIdle_of_effect he, fun hfs hinert => ?_⟩
  · obtain hstay | ⟨hnew, -⟩ := hlatch
    · exact hstay.trans hset
    · exact hnew
  · obtain hstay | ⟨-, hcut⟩ := hlatch
    · rw [hstay, hclear] at hset; cases hset
    · exact hcut
  · have hkeep : ¬ (t.seq.weaponWidth ≠ s.seq.weaponWidth ∨ t.seq.weaponEn ≠ s.seq.weaponEn) := fun hne => by
      have := weapon_writers he hne
      simp [hfs, hinert] at this
    push Not at hkeep
    exact hkeep.symm

/-- Settles O57, column by column. -/
theorem elementsChangeOnlyByTheirListedWriters : Obligations.ElementsChangeOnlyByTheirListedWriters := by
  intro i s t h
  have he := exec_effect h
  obtain ⟨hneg, hdec⟩ := dec_writers he
  obtain ⟨hch, hvalidUp, hvalidDown⟩ := chan_writers he
  obtain ⟨hframe, hlosUp, hlosDown, hloopInd⟩ := ind_writers he
  obtain ⟨hrun, hmode, hdrive⟩ := seq_writers he
  obtain ⟨hin, hlatch⟩ := fs_writers he
  obtain ⟨hcal, hn, hbias⟩ := cal_writers he
  obtain ⟨hgain, htune, hlimits, hsp, hmem⟩ := pid_writers he
  obtain ⟨hill, hbad, hmap⟩ := err_writers he
  exact ⟨hneg, hdec, hch, hvalidUp, hvalidDown, hframe, hlosUp, hlosDown, hloopInd, hrun, hmode, hdrive,
    weapon_writers he, hin, hlatch, hcal, hn, hbias, config_writers he, hgain, htune, hlimits, hsp, hmem,
    hill, hbad, hmap, env_of_effect he⟩

end Sys2Proof.StateProofs
end

section
/-! The address map and the words REG_READ emits (R31 to R36, R62 to R64, R261, R263). -/

namespace Sys2Proof.StateProofs

open Sys2Proof.Machine Sys2Proof.Laws

/-! Which addresses are registers. -/

/-- No row of the map stands at an address that R63 and R64 exclude. -/
theorem row_not_isUnmapped : ∀ row ∈ regMap, ¬ Rule.isUnmapped row.addr := by
  unfold Rule.isUnmapped; decide

/-- Each aligned address up to 0xD0 but 0x5C and 0x7C has a row; k counts the words of the register space. -/
theorem regAt_aligned_isSome : ∀ k < 53, k ≠ 23 → k ≠ 31 → (regAt (BitVec.ofNat 8 (4 * k))).isSome = true := by
  decide

/-- The map lists exactly the addresses that R31 does. -/
theorem regAt_eq_none_iff (a : RegAddr) : regAt a = none ↔ Rule.isUnmapped a := by
  constructor
  · intro hnone
    by_contra hmapped
    simp only [Rule.isUnmapped, not_or, not_not, not_le] at hmapped
    obtain ⟨halign, h5C, h7C, hlast⟩ := hmapped
    have h5C : a.toNat ≠ 0x5C := fun h => h5C (BitVec.eq_of_toNat_eq h)
    have h7C : a.toNat ≠ 0x7C := fun h => h7C (BitVec.eq_of_toNat_eq h)
    have hrow := regAt_aligned_isSome (a.toNat / 4) (by omega) (by omega) (by omega)
    have ha : BitVec.ofNat 8 (4 * (a.toNat / 4)) = a := by
      rw [Nat.mul_div_cancel' (Nat.dvd_of_mod_eq_zero halign), BitVec.ofNat_toNat, BitVec.setWidth_eq]
    rw [ha, hnone] at hrow
    cases hrow
  · intro hunmapped
    rw [Option.eq_none_iff_forall_ne_some]
    intro row hrow
    obtain ⟨hmem, rfl⟩ := regAt_some hrow
    exact row_not_isUnmapped row hmem hunmapped

/-! REG_READ by the row of the address. -/

section

variable {s : State} {a : RegAddr} {row : RegRow}

theorem exec_regRead_mapped (h : regAt a = some row) :
    exec (.regRead a) s = .next { s with resp := s.resp ++ [s.readReg row.reg] } := by
  change execRegRead a s = _
  unfold execRegRead
  rw [h]; rfl

theorem exec_regRead_unmapped (h : regAt a = none) :
    exec (.regRead a) s = .next { s with resp := s.resp ++ [0], err := { s.err with badReg := true } } := by
  change execRegRead a s = _
  unfold execRegRead
  rw [h]; rfl

/-- A register as wide as a word reads as its element. -/
theorem regRead_word {x : Word} (h : regAt a = some row) (hx : s.readReg row.reg = x) :
    exec (.regRead a) s = .next { s with resp := s.resp ++ [x] } := hx ▸ exec_regRead_mapped h

/-- A field narrower than a word reads zero-extended, so with the same number. -/
theorem regRead_zeroExtended {n : Nat} {x : BitVec n} (h : regAt a = some row) (hx : s.readReg row.reg = x.setWidth 32)
    (hn : n ≤ 32) : ∃ w, exec (.regRead a) s = .next { s with resp := s.resp ++ [w] } ∧ w.toNat = x.toNat :=
  ⟨_, exec_regRead_mapped h, by rw [hx, BitVec.toNat_setWidth_of_le hn]⟩

/-- A bias reads sign-extended, so with the same value. -/
theorem regRead_bias {k : Fin 3} (h : regAt a = some ⟨a, .bias k, .ro⟩) :
    ∃ w, exec (.regRead a) s = .next { s with resp := s.resp ++ [w] } ∧ w.toInt = s.cal.bias[k].toInt :=
  ⟨_, exec_regRead_mapped h, BitVec.toInt_signExtend_of_le (by decide)⟩

/-- The two reads of a 64-bit PID value give its two words, which make up the value (R62). -/
theorem regRead_pid_halves {b : RegAddr} {v : PidValue} (hlo : regAt a = some ⟨a, .pidLo v, .ro⟩)
    (hhi : regAt b = some ⟨b, .pidHi v, .ro⟩) :
    ∃ lo hi : Word, execAll [.regRead a, .regRead b] s = .next { s with resp := s.resp ++ [lo, hi] } ∧
      (hi ++ lo : Dword) = s.pid.value v := by
  refine ⟨loWord (s.pid.value v), hiWord (s.pid.value v), ?_, dwordOf_words _⟩
  simp only [execAll, exec_regRead_mapped hlo, exec_regRead_mapped hhi, State.readReg, List.append_assoc,
    List.singleton_append]

end

/-- Each mapped address holds its reset value after reset. -/
theorem readReg_reset : ∀ row ∈ regMap, State.reset.readReg row.reg = Rule.resetValue row.addr := by decide

/-! The bits of the fields. -/

theorem getLsbD_bitWord (b : Bool) : (bitWord 1 b).getLsbD 0 = b := by cases b <;> rfl

theorem getLsbD_phase (p : Phase) : p.code.getLsbD 0 = decide (p = .accumulating) := by cases p <;> rfl

theorem getLsbD_mode (m : ControlMode) : m.code.getLsbD 0 = decide (m = .gyroStabilized) := by cases m <;> rfl

theorem getLsbD_faultPolicy (p : FaultPolicy) : p.code.getLsbD 0 = decide (p = .cutWeapon) := by cases p <;> rfl

theorem getLsbD_gyroErrPolicy (p : GyroErrPolicy) : p.code.getLsbD 0 = decide (p = .neutralThisTick) := by
  cases p <;> rfl

theorem getLsbD_dir (d : Direction) : (dirCode d).getLsbD 0 = decide (d = .reverse) := by cases d <;> rfl

theorem getLsbD_omode (m : OutputMode) : (omodeCode m).getLsbD 0 = decide (m = .accumulating) := by cases m <;> rfl

section

variable (s : State)

/-- The one-bit fields of STATUS (R32). -/
theorem statusWord_bits :
    s.statusWord.getLsbD 0 = s.chan.valid ∧ s.statusWord.getLsbD 1 = s.ind.losInd ∧
    s.statusWord.getLsbD 2 = s.ind.frameInd ∧ s.statusWord.getLsbD 3 = s.ind.loopInd ∧
    s.statusWord.getLsbD 4 = decide (s.seq.mode = .gyroStabilized) ∧ s.statusWord.getLsbD 5 = s.seq.gyroFallback ∧
    s.statusWord.getLsbD 6 = s.seq.loopRun ∧ s.statusWord.getLsbD 7 = s.fs.faultIn ∧
    s.statusWord.getLsbD 8 = s.fs.faultLatch ∧ s.statusWord.getLsbD 16 = s.err.illegalOp ∧
    s.statusWord.getLsbD 17 = s.err.badReg ∧ s.statusWord.getLsbD 18 = s.err.mapDomain := by
  simp only [State.statusWord, BitVec.getLsbD_append (m := 1), BitVec.getLsbD_append (m := 3),
    BitVec.getLsbD_append (m := 4)]
  simp [getLsbD_bitWord, getLsbD_mode, -BitVec.getLsbD_eq_getElem]

/-- CAL_STATE and the reserved ranges of STATUS (R32). -/
theorem statusWord_ranges :
    s.statusWord.extractLsb' 9 3 = s.cal.calState.code ∧ s.statusWord.extractLsb' 12 4 = 0 ∧
    s.statusWord.extractLsb' 19 13 = 0 := by
  simp [State.statusWord, BitVec.extractLsb'_append_eq_of_le (w := 1), BitVec.extractLsb'_append_eq_of_le (w := 3),
    BitVec.extractLsb'_append_eq_of_le (w := 4), BitVec.extractLsb'_append_eq_of_add_le (w := 3),
    BitVec.extractLsb'_append_eq_of_add_le (w := 4), BitVec.extractLsb'_eq_self]

/-- The fields of DEC_STATE (R33). -/
theorem decStateWord_fields :
    s.decStateWord.getLsbD 0 = decide (s.dec.phase = .accumulating) ∧ s.decStateWord.extractLsb' 1 3 = s.dec.index ∧
    s.decStateWord.extractLsb' 4 28 = 0 := by
  refine ⟨?_, ?_, ?_⟩
  · rw [State.decStateWord, BitVec.getLsbD_append (m := 1), if_pos (by decide), getLsbD_phase]
  · simp [State.decStateWord, BitVec.extractLsb'_append_eq_of_le (w := 1),
      BitVec.extractLsb'_append_eq_of_add_le (w := 3), BitVec.extractLsb'_eq_self]
  · simp [State.decStateWord, BitVec.extractLsb'_append_eq_of_le (w := 1), BitVec.extractLsb'_append_eq_of_le (w := 3)]

/-- The fields of CONFIG (R34). -/
theorem configWord_fields :
    s.configWord.getLsbD 0 = s.inp.recenter ∧ s.configWord.getLsbD 1 = decide (s.inp.faultPolicy = .cutWeapon) ∧
    s.configWord.getLsbD 2 = decide (s.inp.gyroErrPolicy = .neutralThisTick) ∧ s.configWord.extractLsb' 3 29 = 0 := by
  simp only [State.configWord, BitVec.getLsbD_append (m := 1)]
  simp [getLsbD_bitWord, getLsbD_faultPolicy, getLsbD_gyroErrPolicy, BitVec.extractLsb'_append_eq_of_le (w := 1),
    -BitVec.getLsbD_eq_getElem]

/-- The fields of PID_FLAGS (R35). -/
theorem pidFlagsWord_fields :
    s.pidFlagsWord.getLsbD 0 = decide (s.pid.dir = .reverse) ∧
    s.pidFlagsWord.getLsbD 1 = decide (s.pid.omode = .accumulating) ∧ s.pidFlagsWord.extractLsb' 2 30 = 0 := by
  simp only [State.pidFlagsWord, BitVec.getLsbD_append (m := 1)]
  simp [getLsbD_dir, getLsbD_omode, BitVec.extractLsb'_append_eq_of_le (w := 1), -BitVec.getLsbD_eq_getElem]

end

/-- A one-bit register holds its bit and nothing above it (R263). -/
theorem bitWord32_fields (b : Bool) : (bitWord 32 b).getLsbD 0 = b ∧ (bitWord 32 b).extractLsb' 1 31 = 0 := by
  cases b <;> decide

/-- Settles O12. -/
theorem resetReadsGiveTheResetColumn : Obligations.ResetReadsGiveTheResetColumn := by
  intro a
  constructor
  · intro hmapped
    obtain ⟨row, hrow⟩ := Option.ne_none_iff_exists'.1 (mt (regAt_eq_none_iff a).1 hmapped)
    obtain ⟨hmem, rfl⟩ := regAt_some hrow
    rw [exec_regRead_mapped hrow, readReg_reset row hmem]; rfl
  · intro hunmapped
    exact exec_regRead_unmapped ((regAt_eq_none_iff a).2 hunmapped)

/-- Settles O54. -/
theorem statusReadHasItsFieldsInPlace : Obligations.StatusReadHasItsFieldsInPlace := by
  intro s
  obtain ⟨hvalid, hlos, hframe, hloop, hmode, hfall, hrun, hin, hlatch, hill, hbad, hmap⟩ := statusWord_bits s
  obtain ⟨hcal, hlow, hhigh⟩ := statusWord_ranges s
  refine ⟨s.statusWord, exec_regRead_mapped (row := ⟨0x00, .status, .ro⟩) rfl, hvalid, hlos, hframe, hloop, hmode, hfall,
    hrun, hin, hlatch, hcal.trans ?_, hlow, hill, hbad, hmap, hhigh⟩
  cases s.cal.calState <;> rfl

/-- Settles O55. -/
theorem registerReadsGiveTheElements : Obligations.RegisterReadsGiveTheElements := by
  intro s
  simp only [List.forall_mem_cons, List.not_mem_nil, false_implies, implies_true, and_true]
  refine ⟨⟨?_, ?_, ?_, ?_, ?_, ?_, ?_, ?_, ?_⟩, ?_, ?_, ?_, ?_⟩
  · exact regRead_pid_halves (v := .zp) rfl rfl
  · exact regRead_pid_halves (v := .zi) rfl rfl
  · exact regRead_pid_halves (v := .zd) rfl rfl
  · exact regRead_pid_halves (v := .outMin) rfl rfl
  · exact regRead_pid_halves (v := .outMax) rfl rfl
  · exact regRead_pid_halves (v := .setpoint) rfl rfl
  · exact regRead_pid_halves (v := .integral) rfl rfl
  · exact regRead_pid_halves (v := .prevMeas) rfl rfl
  · exact regRead_pid_halves (v := .prevOut) rfl rfl
  · refine ⟨?_, ?_, ?_, ?_, ?_, ?_, ?_, ?_, ?_, ?_, ?_, ?_, ?_⟩ <;> exact regRead_word rfl rfl
  · exact regRead_bias (k := 0) rfl
  · exact regRead_bias (k := 1) rfl
  · exact regRead_bias (k := 2) rfl

/-- Settles O56. -/
theorem fieldRegistersReadInPlace : Obligations.FieldRegistersReadInPlace := by
  intro s
  refine ⟨⟨_, exec_regRead_mapped (row := ⟨0x04, .decState, .ro⟩) rfl, decStateWord_fields s⟩,
    ⟨_, exec_regRead_mapped (row := ⟨0x28, .config, .rw⟩) rfl, configWord_fields s⟩,
    ⟨_, exec_regRead_mapped (row := ⟨0xCC, .pidFlags, .ro⟩) rfl, pidFlagsWord_fields s⟩,
    ⟨_, exec_regRead_mapped (row := ⟨0x78, .weaponEn, .ro⟩) rfl, bitWord32_fields s.seq.weaponEn⟩, ?_⟩
  simp only [List.forall_mem_cons, List.not_mem_nil, false_implies, implies_true, and_true]
  exact ⟨⟨_, regRead_word rfl rfl, rfl⟩, regRead_zeroExtended rfl rfl (by decide),
    regRead_zeroExtended rfl rfl (by decide), regRead_zeroExtended rfl rfl (by decide),
    ⟨_, regRead_word rfl rfl, rfl⟩, ⟨_, regRead_word rfl rfl, rfl⟩, ⟨_, regRead_word rfl rfl, rfl⟩,
    regRead_zeroExtended rfl rfl (by decide), regRead_zeroExtended rfl rfl (by decide),
    regRead_zeroExtended rfl rfl (by decide), regRead_zeroExtended rfl rfl (by decide),
    regRead_zeroExtended rfl rfl (by decide)⟩

end Sys2Proof.StateProofs
end

section
/-! SUPPORT. What one step does at each event of the environment, and that every command completes where the invariant of
R37 holds (R71, R72, R77). -/

namespace Sys2Proof.StepProofs

open Sys2Proof.Machine Sys2Proof.Laws

/-! The step, event by event. -/

section Events

variable {s : State} {who others : List Agent} {rest : List Event} {a : Agent} {f : Frame} {fs : List Frame}

theorem runFrame_decoded {i : Instr} (hdecode : decode f = .ok i) (s : State) : runFrame f s = exec i s := by
  unfold runFrame
  rw [hdecode]

theorem runFrame_illegal {e : DecodeError} (hdecode : decode f = .error e) (s : State) :
    runFrame f s = .next (s.raise .illegalOp) := by
  unfold runFrame
  rw [hdecode]

theorem step_arrive (hschedule : s.env.schedule = .arrive who :: rest) : step s = arriveStep who rest s := by
  unfold step eventStep
  rw [hschedule]

theorem arriveStep_accepted (hrst : s.env.rst = false) (harbitrate : arbitrate who = some (a, others)) :
    arriveStep who rest s = agentStep a (s.setSchedule (waiting others rest)) := by
  unfold arriveStep
  rw [hrst, harbitrate]; rfl

theorem agentStep_sends (hstream : s.env.streams.get a = f :: fs) : agentStep a s = runFrame f (s.setStream a fs) := by
  unfold agentStep
  rw [hstream]

/-- A released block takes the first frame of the agent the port accepts and runs it (R71, R285). -/
theorem step_accepted_frame (hrst : s.env.rst = false) (hschedule : s.env.schedule = .arrive who :: rest)
    (harbitrate : arbitrate who = some (a, others)) (hstream : s.env.streams.get a = f :: fs) :
    step s = runFrame f ((s.setSchedule (waiting others rest)).setStream a fs) := by
  rw [step_arrive hschedule, arriveStep_accepted hrst harbitrate]
  exact agentStep_sends hstream

end Events

/-- Settles O6. -/
theorem stepExecutesTheDecodedCommand : Obligations.StepExecutesTheDecodedCommand := by
  intro s who others rest a f fs i hrst hschedule harbitrate hstream hdecode
  rw [step_accepted_frame hrst hschedule harbitrate hstream, runFrame_decoded hdecode]

/-! The three meanings that can fault, each with the part of the invariant that keeps it from it (notes/assumptions/5.md). -/

section Faulting

variable {s : State}

/-- PERIOD is at least 1 (R37 item 6), so the retune divides by no zero. -/
theorem execPidSetPeriod_completes (hpid : s.pid.Inv) (per : Word) : ∃ t, execPidSetPeriod per s = .next t := by
  obtain ⟨hperiod, -⟩ := hpid
  have hne : s.pid.period.toInt ≠ 0 := by omega
  unfold execPidSetPeriod
  rw [if_neg hne]
  split <;> exact ⟨_, rfl⟩

/-- While Accumulating INDEX is 1 or 3 (R37 item 2), so there are slots for a pair. -/
theorem execCapPeriod_completes (hdec : s.dec.Inv) (p now : Word) : ∃ t, execCapPeriod p now s = .next t := by
  obtain ⟨-, hindex⟩ := hdec
  obtain ⟨d, hd⟩ := Option.isSome_iff_exists.mp (onPeriod_isSome s.inp p hindex)
  simp only [execCapPeriod, hd]
  split <;> exact ⟨_, rfl⟩

/-- In Warmup CAL_REM is at least 1 (R37 item 10), so it can be counted down. -/
theorem calWarm_isSome (hrem : 1 ≤ s.cal.calRem.toNat) : ∃ t, s.calWarm = some t := by
  have hlt := s.cal.calRem.isLt
  have hfit := fitU32_eq (x := (s.cal.calRem.toNat : Int) - 1) (by omega) (by omega)
  simp only [State.calWarm, hfit, Option.bind_eq_bind, Option.bind_some]
  exact ⟨_, rfl⟩

/-- One more sample fits the sum of the samples counted so far, and gives the sum of one sample more (R192). -/
theorem sumOfSamples_add {sum : Dword} {cnt cnt' : Word} (hsum : sumOfSamples sum cnt)
    (hcnt : cnt'.toNat = cnt.toNat + 1) (x : Half) :
    ∃ sum', fitS 64 (sum.toInt + x.toInt) = some sum' ∧ sumOfSamples sum' cnt' := by
  have hx := toInt16_range x
  have hlt := cnt.isLt
  have hfit := fitS64_eq (x := sum.toInt + x.toInt) (by omega) (by omega)
  have hval := fitS64_some hfit
  refine ⟨_, hfit, ?_⟩
  rw [sumOfSamples, hval, hcnt]
  omega

/-- A good sample of a running calibration is added and counted; no store of it overflows (R192). -/
theorem calAdd_eq (hcnt : s.cal.calCnt.toNat < s.cal.calN.toNat) (h0 : sumOfSamples s.cal.calSum[0] s.cal.calCnt)
    (h1 : sumOfSamples s.cal.calSum[1] s.cal.calCnt) (h2 : sumOfSamples s.cal.calSum[2] s.cal.calCnt) (x y z : Half) :
    ∃ (sx sy sz : Dword) (cnt : Word), cnt.toNat = s.cal.calCnt.toNat + 1 ∧
      sumOfSamples sx cnt ∧ sumOfSamples sy cnt ∧ sumOfSamples sz cnt ∧
      s.calAdd x y z =
        if cnt = s.cal.calN then State.calDone { s with cal := { s.cal with calSum := #v[sx, sy, sz], calCnt := cnt } }
        else some { s with cal := { s.cal with calSum := #v[sx, sy, sz], calCnt := cnt } } := by
  have hlt := s.cal.calN.isLt
  have hfit := fitU32_eq (x := (s.cal.calCnt.toNat : Int) + 1) (by omega) (by omega)
  have hnext := fitU32_some hfit
  have hone : (pattern 32 ((s.cal.calCnt.toNat : Int) + 1)).toNat = s.cal.calCnt.toNat + 1 := by omega
  obtain ⟨sx, hsx, hx⟩ := sumOfSamples_add h0 hone x
  obtain ⟨sy, hsy, hy⟩ := sumOfSamples_add h1 hone y
  obtain ⟨sz, hsz, hz⟩ := sumOfSamples_add h2 hone z
  exact ⟨sx, sy, sz, _, hone, hx, hy, hz, by
    simp only [State.calAdd, hsx, hsy, hsz, hfit, Option.bind_eq_bind, Option.bind_some]⟩

/-- The sums stay those of CAL_CNT samples, so a good sample is counted, and at the last one the means fit (R193). -/
theorem calAdd_isSome (hcnt : s.cal.calCnt.toNat < s.cal.calN.toNat) (h0 : sumOfSamples s.cal.calSum[0] s.cal.calCnt)
    (h1 : sumOfSamples s.cal.calSum[1] s.cal.calCnt) (h2 : sumOfSamples s.cal.calSum[2] s.cal.calCnt) (x y z : Half) :
    ∃ t, s.calAdd x y z = some t := by
  obtain ⟨sx, sy, sz, cnt, hone, hx, hy, hz, hadd⟩ := calAdd_eq hcnt h0 h1 h2 x y z
  rw [hadd]
  split
  · rename_i hlast
    subst hlast
    obtain ⟨_, _, _, -, -, -, hdone⟩ :=
      calDone_eq (s := { s with cal := { s.cal with calSum := #v[sx, sy, sz], calCnt := s.cal.calN } })
        (by change 0 < s.cal.calN.toNat; omega) hx hy hz
    exact ⟨_, hdone⟩
  · exact ⟨_, rfl⟩

theorem checked_completes {r : Option State} (h : ∃ t, r = some t) : ∃ t, checked r = .next t := by
  obtain ⟨t, rfl⟩ := h
  exact ⟨t, rfl⟩

/-- The counts and sums of the calibrator stay within their elements (R37 items 10 and 11). -/
theorem execCalSample_completes (hcal : s.cal.Inv) (x y z : Half) (err : Bool) :
    ∃ t, execCalSample x y z err s = .next t := by
  obtain ⟨hwarmup, haccumulate, h0, h1, h2⟩ := hcal
  unfold execCalSample
  split
  · rename_i hphase
    obtain ⟨hrem, -⟩ := hwarmup hphase
    split
    · exact ⟨_, rfl⟩
    · exact checked_completes (calWarm_isSome hrem)
  · rename_i hphase
    split
    · exact ⟨_, rfl⟩
    · exact checked_completes (calAdd_isSome (haccumulate hphase) h0 h1 h2 x y z)
  all_goals exact ⟨_, rfl⟩

end Faulting

/-! Every command, every frame and every event. -/

section Completion

variable {s : State}

/-- From a state of the invariant every command completes: only three can fault, and the invariant excludes it. -/
theorem exec_completes (hinv : s.Inv) (i : Instr) : ∃ t, exec i s = .next t := by
  obtain ⟨hdec, -, hpid, hcal, -⟩ := hinv
  cases i with
  | capPeriod p now => exact execCapPeriod_completes hdec p now
  | pidSetPeriod per => exact execPidSetPeriod_completes hpid per
  | calSample x y z err => exact execCalSample_completes hcal x y z err
  | nop | capWidth | fsTick | avg | sign | negabs | pidRun | pidSetSetpoint => exact ⟨_, rfl⟩
  | map => simp only [exec, execMap]; split <;> exact ⟨_, rfl⟩
  | pidConfigure => simp only [exec, execPidConfigure]; split <;> exact ⟨_, rfl⟩
  | pidSetLimits => simp only [exec, execPidSetLimits]; split <;> exact ⟨_, rfl⟩
  | calStart => simp only [exec, execCalStart]; split <;> exact ⟨_, rfl⟩
  | loopStart => simp only [exec, execLoopStart]; split <;> exact ⟨_, rfl⟩
  | regRead => simp only [exec, execRegRead]; split <;> exact ⟨_, rfl⟩
  | ctrlTick =>
    simp only [exec, execCtrlTick]
    split
    · split <;> exact ⟨_, rfl⟩
    · exact ⟨_, rfl⟩
  | regWrite =>
    simp only [exec, execRegWrite]
    split
    · exact ⟨_, rfl⟩
    · split <;> exact ⟨_, rfl⟩

/-- A legal frame completes as its command does, an illegal one by its error bit (R86). -/
theorem runFrame_completes (hinv : s.Inv) (f : Frame) : ∃ t, runFrame f s = .next t := by
  cases hdecode : decode f with
  | ok i => rw [runFrame_decoded hdecode]; exact exec_completes hinv i
  | error e => exact ⟨_, runFrame_illegal hdecode s⟩

/-- The streams are not in the invariant, so it still holds when the frame has been taken. -/
theorem agentStep_completes (hinv : s.Inv) (a : Agent) : ∃ t, agentStep a s = .next t := by
  cases hstream : s.env.streams.get a with
  | nil => exact ⟨s, by unfold agentStep; rw [hstream]⟩
  | cons f fs =>
    rw [agentStep_sends hstream]
    exact runFrame_completes (s := s.setStream a fs) hinv f

/-- The events to come are not in the invariant either, so it still holds when the arrival has been taken. -/
theorem arriveStep_completes (hinv : s.Inv) (who : List Agent) (rest : List Event) :
    ∃ t, arriveStep who rest s = .next t := by
  unfold arriveStep
  split
  · exact ⟨_, rfl⟩
  · split
    · exact ⟨_, rfl⟩
    · rename_i a others _
      exact agentStep_completes (s := s.setSchedule (waiting others rest)) hinv a

end Completion

/-- Settles O15, event by event: only an arrival runs a command. -/
theorem invariantStepsAlwaysComplete : Obligations.InvariantStepsAlwaysComplete := by
  intro s hinv
  unfold step eventStep
  split
  · exact ⟨_, rfl⟩
  · exact arriveStep_completes hinv _ _
  · exact ⟨_, rfl⟩
  · exact ⟨_, rfl⟩

end Sys2Proof.StepProofs
end

section
/-! SUPPORT. When a frame decodes: the decoder against the encoder and against the legality test of R86. -/

namespace Sys2Proof.EncodingProofs

open Sys2Proof.Machine Sys2Proof.Laws

/-! The opcode table. -/

section Table

variable {c : BitVec 8} {o : Opcode} {a : RegAddr} {ws : List Word}

/-- The decoder's opcode search and the table of codes agree (R84). -/
theorem ofCode_eq_some_iff : Opcode.ofCode c = some o ↔ o.code = c :=
  ⟨code_of_ofCode, fun h => h ▸ ofCode_code o⟩

theorem mem_all (o : Opcode) : o ∈ Opcode.all := by cases o <;> decide

/-- The legality test's table holds the decoder's codes and lengths, row for row (R83, R84). -/
theorem operandTable_eq : Frame.operandTable = Opcode.all.map (fun o => (o.code.toNat, o.operandWords)) := by decide

/-- The table has exactly one row for each opcode. -/
theorem mem_operandTable_iff {op l : Nat} :
    (op, l) ∈ Frame.operandTable ↔ ∃ o : Opcode, o.code.toNat = op ∧ o.operandWords = l := by
  simp [operandTable_eq, mem_all]

/-- The commands that carry an address are the two whose OP the third condition of R86 names. -/
theorem usesAddr_iff (o : Opcode) : o.usesAddr = true ↔ o.code.toNat = 0x70 ∨ o.code.toNat = 0x71 := by
  cases o <;> decide

/-- The fields of word 0 make up word 0 where RSVD is 0 (R81). -/
theorem word0Of_fields {w : Word} (hrsvd : rsvdField w = 0) : word0Of (opField w) (addrField w) = w := by
  apply BitVec.eq_of_toNat_eq
  obtain ⟨hop, haddr, hz⟩ := toNat_fields ⟨w, []⟩
  rw [hrsvd] at hz
  simp only [Frame.op, Frame.addr, Frame.rsvd] at hop haddr hz
  rw [word0Of_toNat, hop, haddr]
  simp at hz
  omega

/-- An assembled command has the opcode it was assembled for and the address given, where its format takes one. -/
theorem opcode_addr_of_assemble {i : Instr} (h : assemble o a ws = some i) (ha : a = 0 ∨ o.usesAddr = true) :
    i.opcode = o ∧ i.addr = a := by
  cases o with
  | regRead | regWrite => simp only [assemble] at h; split at h <;> cases h; exact ⟨rfl, rfl⟩
  | _ =>
    obtain rfl : a = 0 := by simpa [Opcode.usesAddr] using ha
    simp only [assemble] at h
    split at h <;> cases h
    exact ⟨rfl, rfl⟩

/-- The number of operand words is all that assembling a command needs (R85). -/
theorem assembles_iff_length : (∃ i, assemble o a ws = some i) ↔ ws.length = o.operandWords := by
  rw [← Option.isSome_iff_exists, assemble_isSome, decide_eq_true_iff]

end Table

/-! Decoding a frame. -/

section Decoding

variable {f : Frame} {i : Instr}

/-- A frame decodes exactly where OP, RSVD and ADDR are right and its operand words can be assembled (R86). -/
theorem decode_eq_ok_iff : decode f = .ok i ↔
    ∃ o : Opcode, o.code = opField f.word0 ∧ rsvdField f.word0 = 0 ∧
      (addrField f.word0 = 0 ∨ o.usesAddr = true) ∧ assemble o (addrField f.word0) f.operands = some i := by
  constructor
  · intro h
    unfold decode at h
    split at h
    · cases h
    · rename_i o ho
      split_ifs at h with hrsvd haddr
      split at h <;> cases h
      rename_i hi
      exact ⟨o, code_of_ofCode ho, not_not.1 hrsvd, by simpa [or_iff_not_imp_left] using haddr, hi⟩
  · rintro ⟨o, ho, hrsvd, haddr, hi⟩
    obtain ⟨w, ws⟩ := f
    have hw : w = word0Of o.code (addrField w) := by rw [ho]; exact (word0Of_fields hrsvd).symm
    rw [hw, decode_word0Of o _ ws haddr, hi]

/-- A word 0 and operand words that assemble decode to the command assembled. -/
theorem decode_of_assemble (o : Opcode) (a : RegAddr) {w : Word} {ws : List Word} (hw : w = word0Of o.code a)
    (ha : a = 0 ∨ o.usesAddr = true) (hi : assemble o a ws = some i) : decode ⟨w, ws⟩ = .ok i := by
  rw [hw, decode_word0Of o a ws ha, hi]

/-- The fourth condition of R86 asks for a row of the table, and so implies the first. -/
theorem lengthRight_iff : f.lengthRight = true ↔ (f.op, f.operands.length) ∈ Frame.operandTable := by
  simp [Frame.lengthRight, List.any_eq_true]

theorem opAssigned_of_lengthRight (h : f.lengthRight = true) : f.opAssigned = true :=
  List.any_eq_true.2 ⟨_, lengthRight_iff.1 h, beq_self_eq_true f.op⟩

/-- The legality test in terms of the fields that the decoder reads (R86). -/
theorem legal_iff : f.legal = true ↔
    ∃ o : Opcode, o.code = opField f.word0 ∧ rsvdField f.word0 = 0 ∧
      (addrField f.word0 = 0 ∨ o.usesAddr = true) ∧ f.operands.length = o.operandWords := by
  obtain ⟨hop, haddr, hrsvd⟩ := toNat_fields f
  have hlegal : f.legal = true ↔ f.lengthRight = true ∧ f.rsvd = 0 ∧ (f.addr = 0 ∨ f.op = 0x70 ∨ f.op = 0x71) := by
    simp only [Frame.legal, Frame.rsvdZero, Frame.addrAllowed, Bool.and_eq_true, Bool.or_eq_true, beq_iff_eq, or_assoc]
    exact ⟨fun ⟨⟨⟨_, hz⟩, ha⟩, hl⟩ => ⟨hl, hz, ha⟩,
      fun ⟨hl, hz, ha⟩ => ⟨⟨⟨opAssigned_of_lengthRight hl, hz⟩, ha⟩, hl⟩⟩
  rw [hlegal, lengthRight_iff, mem_operandTable_iff, ← hop, ← haddr, ← hrsvd]
  simp only [usesAddr_iff, ← BitVec.toNat_inj, BitVec.ofNat_eq_ofNat, BitVec.toNat_ofNat, Nat.zero_mod]
  constructor
  · rintro ⟨⟨o, ho, hl⟩, hz, ha⟩
    exact ⟨o, ho, hz, ho ▸ ha, hl.symm⟩
  · rintro ⟨o, ho, hz, ha, hl⟩
    exact ⟨⟨o, ho, hl.symm⟩, hz, ho ▸ ha⟩

/-- The legality test and the decoder agree on what a legal frame is (R86). -/
theorem legal_iff_decodes : f.legal = true ↔ ∃ i, decode f = .ok i := by
  simp only [decode_eq_ok_iff, legal_iff, ← assembles_iff_length (a := addrField f.word0)]
  constructor
  · rintro ⟨o, ho, hrsvd, haddr, i, hi⟩
    exact ⟨i, o, ho, hrsvd, haddr, hi⟩
  · rintro ⟨i, o, ho, hrsvd, haddr, hi⟩
    exact ⟨o, ho, hrsvd, haddr, i, hi⟩

end Decoding

/-! Encoding a command. -/

/-- The encoder sends an address with the two commands that carry one only (R81). -/
theorem addr_eq_zero_or_usesAddr (i : Instr) : i.addr = 0 ∨ i.opcode.usesAddr = true := by
  cases i with
  | regRead | regWrite => exact .inr rfl
  | _ => exact .inl rfl

/-- Each command's operands survive their words (R82, R83). -/
theorem assemble_operandList (i : Instr) : assemble i.opcode i.addr i.operandList = some i := by
  cases i with
  | nop | loopStart | regRead | capWidth | regWrite | sign | negabs | pidSetPeriod | capPeriod | calStart | avg | map => rfl
  | fsTick | calSample | ctrlTick => simp [Instr.opcode, Instr.operandList, assemble]
  | pidRun | pidSetSetpoint | pidSetLimits | pidConfigure =>
    simp [Instr.opcode, Instr.operandList, assemble, wordsOf]

/-- The encoder writes as many operand words as the format says (R83). -/
theorem operandList_length (i : Instr) : i.operandList.length = i.opcode.operandWords := by cases i <;> rfl

/-- Settles O2. -/
theorem decodeOfEncodeIsTheCommand : Obligations.DecodeOfEncodeIsTheCommand := fun i =>
  decode_of_assemble i.opcode i.addr rfl (addr_eq_zero_or_usesAddr i) (assemble_operandList i)

/-- Settles O3: the two clauses are the two outcomes of decoding. -/
theorem illegalFramesAreDiscardedWithErrorBit : Obligations.IllegalFramesAreDiscardedWithErrorBit := by
  intro f s
  constructor
  · intro hlegal
    obtain ⟨i, hi⟩ := legal_iff_decodes.1 hlegal
    exact ⟨i, hi, StepProofs.runFrame_decoded hi s⟩
  · intro hillegal
    cases hdecode : decode f with
    | ok i => rw [legal_iff_decodes.2 ⟨i, hdecode⟩] at hillegal; cases hillegal
    | error e => exact ⟨_, StepProofs.runFrame_illegal hdecode s, rfl, rfl⟩

/-- Settles O4. -/
theorem decodedCommandKeepsWordZeroAndLength : Obligations.DecodedCommandKeepsWordZeroAndLength := by
  intro f i hdecode
  obtain ⟨o, ho, hrsvd, haddr, hi⟩ := decode_eq_ok_iff.1 hdecode
  obtain ⟨rfl, ha⟩ := opcode_addr_of_assemble hi haddr
  have hlength : f.operands.length = i.opcode.operandWords := assembles_iff_length.1 ⟨i, hi⟩
  refine ⟨?_, (operandList_length i).trans hlength.symm, ?_⟩
  · change word0Of i.opcode.code i.addr = f.word0
    rw [ho, ha, word0Of_fields hrsvd]
  · exact mem_operandTable_iff.2 ⟨i.opcode, by rw [ho, (toNat_fields f).1], hlength.symm⟩

end Sys2Proof.EncodingProofs
end

section
/-! The values of the operands: each type of R82 as a number, and frames written out word by word. -/

namespace Sys2Proof.EncodingProofs

open Sys2Proof.Machine Sys2Proof.Laws

/-! The operand types of R82. -/

theorem dwordOf_eq_ofNat (lo hi : Word) : dwordOf lo hi = BitVec.ofNat 64 (lo.toNat + 2 ^ 32 * hi.toNat) := by
  apply BitVec.eq_of_toNat_eq
  unfold dwordOf
  rw [BitVec.toNat_append, ← Nat.shiftLeft_add_eq_or_of_lt lo.isLt, Nat.shiftLeft_eq, BitVec.toNat_ofNat]
  omega

theorem halfOf_eq_ofNat (w : Word) : halfOf w = BitVec.ofNat 16 (w.toNat % 2 ^ 16) := by
  apply BitVec.eq_of_toNat_eq
  unfold halfOf
  rw [BitVec.extractLsb'_toNat, Nat.shiftRight_zero, BitVec.toNat_ofNat, Nat.mod_mod]

/-- Bit k of a word as a number. -/
theorem getLsbD_eq_decide (w : Word) (k : Nat) : w.getLsbD k = decide (w.toNat / 2 ^ k % 2 = 1) := by
  rw [← BitVec.testBit_toNat, Nat.testBit_eq_decide_div_mod_eq]

theorem bitOf_eq (w : Word) : bitOf w = (w.toNat % 2 == 1) := by
  unfold bitOf
  rw [getLsbD_eq_decide, Nat.pow_zero, Nat.div_one]
  rfl

theorem dirOf_eq (w : Word) : dirOf w = if w.toNat % 2 = 1 then .reverse else .direct := by
  simp only [dirOf, getLsbD_eq_decide, decide_eq_true_eq, Nat.pow_zero, Nat.div_one]

theorem omodeOf_eq (w : Word) : omodeOf w = if w.toNat / 2 % 2 = 1 then .accumulating else .nonAccumulating := by
  simp only [omodeOf, getLsbD_eq_decide, decide_eq_true_eq, Nat.pow_one]

/-- Settles O5: each frame decodes to the command of its opcode on the operands that its format assembles. -/
theorem operandsAssembleByTheirTypes : Obligations.OperandsAssembleByTheirTypes := by
  intro a b c d e f g h i j k l m n
  simp only [← dwordOf_eq_ofNat, ← halfOf_eq_ofNat, ← bitOf_eq, ← dirOf_eq, ← omodeOf_eq]
  exact ⟨decode_of_assemble .capWidth 0 rfl (.inl rfl) rfl, decode_of_assemble .avg 0 rfl (.inl rfl) rfl,
    decode_of_assemble .fsTick 0 rfl (.inl rfl) rfl, decode_of_assemble .calSample 0 rfl (.inl rfl) rfl,
    decode_of_assemble .ctrlTick 0 rfl (.inl rfl) rfl, decode_of_assemble .pidRun 0 rfl (.inl rfl) rfl,
    decode_of_assemble .pidConfigure 0 rfl (.inl rfl) rfl⟩

/-- Settles O1: eight frames assemble at the opcode and address of their word 0; the last names no opcode. -/
theorem specWordsDecodeAsWritten : Obligations.SpecWordsDecodeAsWritten :=
  ⟨decode_of_assemble .capPeriod 0 rfl (.inl rfl) rfl, decode_of_assemble .regWrite 0x4C rfl (.inr rfl) rfl,
    decode_of_assemble .regRead 0x18 rfl (.inr rfl) rfl, decode_of_assemble .calSample 0 rfl (.inl rfl) rfl,
    decode_of_assemble .pidSetLimits 0 rfl (.inl rfl) rfl, decode_of_assemble .fsTick 0 rfl (.inl rfl) rfl,
    decode_of_assemble .loopStart 0 rfl (.inl rfl) rfl, decode_of_assemble .map 0 rfl (.inl rfl) rfl, rfl⟩

end Sys2Proof.EncodingProofs
end

section
/-! The words that each command puts on the response port (R88). -/

namespace Sys2Proof.EncodingProofs

open Sys2Proof.Machine Sys2Proof.Laws Sys2Proof.StateProofs

/-- The table of R88: the number of result words of a command. -/
def resultWords (o : Opcode) : Nat :=
  if o ∈ [.map, .avg, .sign, .negabs, .regRead] then 1 else if o = .pidRun then 2 else 0

theorem resultWords_of_silent {o : Opcode} (h : o ∉ answering) : resultWords o = 0 := by
  revert h; cases o <;> decide

theorem resultWords_of_answer {o : Opcode} (h : o ∈ answering) (hone : o ≠ .pidRun) : resultWords o = 1 := by
  revert h hone; cases o <;> decide

/-- A completed command appends its result words to the response port. -/
theorem resp_of_effect {i : Instr} {s t : State} (h : Effect s i t) :
    ∃ ws : List Word, t.resp = s.resp ++ ws ∧ ws.length = resultWords i.opcode := by
  cases h with
  | unchanged _ hi => exact ⟨[], (List.append_nil _).symm, (resultWords_of_silent hi).symm⟩
  | answer _ w hi hone => exact ⟨[w], rfl, (resultWords_of_answer hi hone).symm⟩
  | mapViolation => exact ⟨[Config.freeWord s.free], by simp, rfl⟩
  | badRead => exact ⟨[0], by simp, rfl⟩
  | badWrite => exact ⟨[], by simp, rfl⟩
  | pidRun _ out => exact ⟨wordsOf out, rfl, rfl⟩
  | _ => exact ⟨[], (List.append_nil _).symm, rfl⟩

/-- Settles O59. -/
theorem commandsEmitTheirNumberOfWords : Obligations.CommandsEmitTheirNumberOfWords :=
  fun _ _ _ h => resp_of_effect (exec_effect h)

end Sys2Proof.EncodingProofs
end

section
/-! The frame and the Manual tick of the end-to-end scenario (R90, R161, R231, R237). -/

namespace Sys2Proof.EncodingProofs

open Sys2Proof.Machine Sys2Proof.Laws

/-! One capture: a CAP_WIDTH with the CAP_PERIOD that follows it. -/

section Capture

variable {s : State} {d : PulseAccumulator} {cfg : InputConfig} {is : List Instr} {w v p now : Word}

theorem execAll_cons {i : Instr} {t : State} (h : exec i s = .next t) : execAll (i :: is) s = execAll is t := by
  rw [execAll, h]

theorem plausible_iff {x : Int} : plausible cfg x = true ↔ Rule.isPlausible cfg x := by
  simp [plausible, Rule.isPlausible]

/-- The high width of a capture is what its period leaves of its low width (R161). -/
theorem uval_add_sub (hfit : w.toNat + v.toNat < 2 ^ 32) : uval (w + v) - uval w = v.toNat := by
  simp only [uval, BitVec.toNat_add_of_lt hfit]
  omega

/-- A gap and a plausible pulse begin a frame, whatever the decoder held (R161, R164 row 1). -/
theorem onPeriod_gap (hgap : cfg.syncGap.toNat < w.toNat) (hfit : w.toNat + v.toNat < 2 ^ 32)
    (hv : Rule.isPlausible cfg v.toNat) :
    ({ d with negWidth := w } : PulseAccumulator).onPeriod cfg (w + v) =
      some ⟨.accumulating, 1, d.buf.set 0 (Rule.stored cfg v.toNat), w⟩ := by
  unfold PulseAccumulator.onPeriod
  simp only [uval_add_sub hfit]
  rw [if_pos (by exact_mod_cast hgap), PulseAccumulator.sync, if_pos (plausible_iff.2 hv)]
  rfl

/-- Two plausible pulses inside a frame are appended at INDEX (R161). -/
theorem onPeriod_pair {k : BitVec 3} {b : Vector Word 5} (hlow : w.toNat ≤ cfg.syncGap.toNat)
    (hw : Rule.isPlausible cfg w.toNat) (hv : Rule.isPlausible cfg v.toNat) :
    (PulseAccumulator.mk .accumulating k b w).onPeriod cfg (w + v) =
      (PulseAccumulator.mk .accumulating k b w).append cfg v.toNat := by
  have hfit : w.toNat + v.toNat < 2 ^ 32 := by
    have := cfg.pulseMax.isLt
    have := hw.2
    have := hv.2
    omega
  unfold PulseAccumulator.onPeriod
  simp only [uval_add_sub hfit]
  rw [if_neg (by simpa using hlow), if_pos (by rw [Bool.and_eq_true]; exact ⟨plausible_iff.2 hw, plausible_iff.2 hv⟩)]

/-- The first pair of a frame (R164 row 4). -/
theorem onPeriod_firstPair {b : Vector Word 5} (hlow : w.toNat ≤ cfg.syncGap.toNat)
    (hw : Rule.isPlausible cfg w.toNat) (hv : Rule.isPlausible cfg v.toNat) :
    (PulseAccumulator.mk .accumulating 1 b w).onPeriod cfg (w + v) =
      some ⟨.accumulating, 3, (b.set 1 (Rule.stored cfg w.toNat)).set 2 (Rule.stored cfg v.toNat), w⟩ :=
  onPeriod_pair hlow hw hv

/-- The second pair of a frame (R164 row 5). -/
theorem onPeriod_secondPair {b : Vector Word 5} (hlow : w.toNat ≤ cfg.syncGap.toNat)
    (hw : Rule.isPlausible cfg w.toNat) (hv : Rule.isPlausible cfg v.toNat) :
    (PulseAccumulator.mk .accumulating 3 b w).onPeriod cfg (w + v) =
      some ⟨.accumulating, 5, (b.set 3 (Rule.stored cfg w.toNat)).set 4 (Rule.stored cfg v.toNat), w⟩ :=
  onPeriod_pair hlow hw hv

/-- A capture that completes no frame changes the PulseAccumulator alone (R160, R161). -/
theorem execAll_capture (hd : ({ s.dec with negWidth := w } : PulseAccumulator).onPeriod s.inp p = some d)
    (hopen : d.index ≠ 5) :
    execAll (.capWidth w :: .capPeriod p now :: is) s = execAll is { s with dec := d } := by
  rw [execAll_cons (t := { s with dec := { s.dec with negWidth := w } }) rfl]
  refine execAll_cons ?_
  simp only [exec, execCapPeriod, hd]
  exact if_neg fun h => hopen h.2

/-- A capture that completes a frame commits it (R161, R163). -/
theorem execAll_capture_commit (hd : ({ s.dec with negWidth := w } : PulseAccumulator).onPeriod s.inp p = some d)
    (hphase : d.phase = .accumulating) (hindex : d.index = 5) :
    execAll (.capWidth w :: .capPeriod p now :: is) s = execAll is (State.commit { s with dec := d } now) := by
  rw [execAll_cons (t := { s with dec := { s.dec with negWidth := w } }) rfl]
  refine execAll_cons ?_
  simp only [exec, execCapPeriod, hd]
  exact if_pos ⟨hphase, hindex⟩

end Capture

/-! One frame. -/

/-- The three captures of a frame fill all five slots. -/
theorem set_five_slots (b : Vector Word 5) (f : Word → Word) (s0 s1 s2 s3 s4 : Word) :
    ((((b.set 0 (f s0)).set 1 (f s1)).set 2 (f s2)).set 3 (f s3)).set 4 (f s4) = #v[s0, s1, s2, s3, s4].map f := by
  ext i hi
  match i, hi with
  | 0, _ | 1, _ | 2, _ | 3, _ | 4, _ => simp

/-- PPM_FRAME with a gap past SYNC_GAP and plausible slots commits the frame of its slots (R90), where the two low
widths are no gaps themselves (notes/assumptions/11.md). -/
theorem execAll_ppmFrame {s : State} {g s0 s1 s2 s3 s4 now : Word} {is : List Instr}
    (hgap : s.inp.syncGap.toNat < g.toNat) (hfit : g.toNat + s0.toNat < 2 ^ 32)
    (hlow1 : s1.toNat ≤ s.inp.syncGap.toNat) (hlow3 : s3.toNat ≤ s.inp.syncGap.toNat)
    (hslots : ∀ w ∈ [s0, s1, s2, s3, s4], Rule.isPlausible s.inp w.toNat) :
    execAll (ppmFrame g s0 s1 s2 s3 s4 now ++ is) s = execAll is (State.commit { s with dec :=
      ⟨.accumulating, 5, #v[s0, s1, s2, s3, s4].map (fun w => Rule.stored s.inp w.toNat), s3⟩ } now) := by
  have h0 := hslots s0 (by simp)
  have h1 := hslots s1 (by simp)
  have h2 := hslots s2 (by simp)
  have h3 := hslots s3 (by simp)
  have h4 := hslots s4 (by simp)
  calc execAll (ppmFrame g s0 s1 s2 s3 s4 now ++ is) s
    _ = execAll (.capWidth s1 :: .capPeriod (s1 + s2) now :: .capWidth s3 :: .capPeriod (s3 + s4) now :: is)
          { s with dec := ⟨.accumulating, 1, _, g⟩ } := execAll_capture (onPeriod_gap hgap hfit h0) (by simp)
    _ = execAll (.capWidth s3 :: .capPeriod (s3 + s4) now :: is) { s with dec := ⟨.accumulating, 3, _, s1⟩ } :=
          execAll_capture (onPeriod_firstPair hlow1 h1 h2) (by simp)
    _ = execAll is (State.commit { s with dec := ⟨.accumulating, 5, _, s3⟩ } now) :=
          execAll_capture_commit (onPeriod_secondPair hlow3 h3 h4) rfl rfl
    _ = _ := by rw [← set_five_slots s.dec.buf]

/-- Without RECENTER a width is stored as it is (R162). -/
theorem stored_eq_self {cfg : InputConfig} (hrecenter : cfg.recenter = false) (w : Word) :
    Rule.stored cfg w.toNat = w := by
  simp [Rule.stored, hrecenter]

/-! One tick. -/

section Tick

variable {s : State}

/-- A centered value maps to the middle of its output range, whatever the deadband (R100, R105). -/
theorem mapValue_center {inLow inHigh outLow outHigh deadband : Int} (hout : outLow ≤ outHigh) :
    mapValue inLow inHigh (avg inLow inHigh) outLow outHigh deadband = avg outLow outHigh := by
  have hadj : deadbandAdjust 0 deadband = 0 := by simp [deadbandAdjust, signOf]
  have hmid : outLow ≤ avg outLow outHigh ∧ avg outLow outHigh ≤ outHigh := by rw [avg_eq]; omega
  simp only [mapValue, mapScaled, Int.sub_self, hadj, Int.zero_mul, tdiv, Int.zero_tdiv, Int.add_zero]
  exact clamp_of_mem hmid.1 hmid.2

theorem uval_nonneg {n : Nat} (x : BitVec n) : 0 ≤ uval x := Int.natCast_nonneg _

/-- A channel at the middle of the input range maps to 0 (R231, R233). -/
theorem mapSymmetric_center {c : LoopConfig} {v : Word} (hv : sval v = avg (sval c.inLow) (sval c.inHigh))
    (range : BitVec 31) : c.mapSymmetric v range = 0 := by
  have := uval_nonneg range
  rw [LoopConfig.mapSymmetric, LoopConfig.mapInput, hv, mapValue_center (by omega), avg_eq]
  omega

/-- The low end of the reset input range maps to a weapon width of 0 (R231). -/
theorem mapValue_lowEnd {range : Int} (hrange : 0 ≤ range) : mapValue 1000 2000 1000 0 range 0 = 0 := by
  have hscaled : mapScaled 1000 2000 (-500) 0 range 0 = -(range / 2) := by
    change ((-500) * (range - 0)).tdiv 1000 = _
    rw [Int.neg_mul, Int.neg_tdiv, Int.tdiv_eq_ediv_of_nonneg (by omega)]
    omega
  change clamp (avg 0 range + mapScaled 1000 2000 (-500) 0 range 0) 0 range = 0
  rw [hscaled, avg_eq, clamp_of_mem] <;> omega

theorem shape_zero (c : LoopConfig) : c.shape 0 = 0 := by
  have := uval_nonneg c.driveRange
  simp [LoopConfig.shape, clamp_of_mem (x := 0) (Int.neg_nonpos_of_nonneg this) this]

/-- A Manual tick in contract mixes the stick values and changes nothing else but LOOP_IND (R231). -/
theorem exec_ctrlTick_manual (gx gy gz : Half) (gerr : Bool) (hrun : s.seq.loopRun = true) (hvalid : s.chan.valid = true)
    (hmode : s.seq.mode = .manual) (hcontract : s.loop.contractHolds = true) :
    exec (.ctrlTick gx gy gz gerr) s = .next s.toggleLoop.mixManual := by
  change execCtrlTick gx gy gz gerr s = _
  rw [execCtrlTick_valid gx gy gz gerr hrun hvalid, validTick_noError, mix_manual (s := s.toggleLoop) gz hcontract hmode]
  simp [State.gyroError, hmode]

/-- Centered sticks and an idle weapon channel leave all three outputs at 0 (R231, R232). -/
theorem mixManual_still (haileron : s.aileron = 0) (helevator : s.elevator = 0) (hweapon : s.weapon = 0) :
    s.mixManual = s.drive 0 0 0 (!s.fs.faultLatch) := by
  rw [State.mixManual, haileron, helevator, Int.sub_zero, Int.add_zero, State.mixOut, shape_zero, hweapon]
  cases s.fs.faultLatch <;> rfl

end Tick

/-- Settles O49: the captures commit the vector, the stick channels lie at the middle of the input range and the weapon
channel at its low end. -/
theorem centeredFrameThenManualTickIsStill : Obligations.CenteredFrameThenManualTickIsStill := by
  intro s now gx gy gz gerr hgap hmin hmax hrecenter hlow hhigh hdeadband hrun hmode
  have hcommit := execAll_ppmFrame (s := s) (g := 6000) (s0 := 1500) (s1 := 1500) (s2 := 1000) (s3 := 1500) (s4 := 1500)
    (now := now) (is := [.ctrlTick gx gy gz gerr]) (by rw [hgap]; decide) (by decide) (by rw [hgap]; decide)
    (by rw [hgap]; decide) (by simp [Rule.isPlausible, hmin, hmax])
  simp only [stored_eq_self hrecenter, Vector.map_id'] at hcommit
  set u := State.commit _ now
  have hcontract : u.loop.contractHolds = true := by
    refine (contractHolds_iff s.loop).2 ?_
    rw [hlow, hhigh]
    change 1000 + 2 * (s.loop.chDeadband.toNat : Int) < 2000
    omega
  have hcenter : sval (1500 : Word) = avg (sval s.loop.inLow) (sval s.loop.inHigh) := by rw [hlow, hhigh]; rfl
  have hweapon : u.toggleLoop.weapon = 0 := by
    change mapValue (sval s.loop.inLow) (sval s.loop.inHigh) 1000 0 (uval s.loop.weaponRange) 0 = 0
    rw [hlow, hhigh]
    exact mapValue_lowEnd (uval_nonneg _)
  have hstill : u.toggleLoop.mixManual = u.toggleLoop.drive 0 0 0 (!s.fs.faultLatch) :=
    mixManual_still (mapSymmetric_center hcenter _) (mapSymmetric_center hcenter _) hweapon
  have htick := exec_ctrlTick_manual (s := u) gx gy gz gerr hrun rfl hmode hcontract
  rw [hstill] at htick
  exact ⟨_, hcommit.trans (execAll_cons htick), rfl, rfl, rfl, rfl⟩

end Sys2Proof.EncodingProofs
end

section
/-! SUPPORT. The range mapper against the formulas of R100: the contract test, the deadband, the scaled term and the
clamp, as facts about integers. -/

namespace Sys2Proof.RangeMapperProofs

open Sys2Proof.Machine Sys2Proof.Laws

section Mapping

variable {inLow inHigh outLow outHigh db : Int}

/-! The contract of R100. -/

theorem mapContract_iff_keepsContract :
    mapContract inLow inHigh outLow outHigh db = true ↔ Rule.keepsContract inLow inHigh outLow outHigh db :=
  mapContract_iff

theorem mapRange_of_keepsContract (h : Rule.keepsContract inLow inHigh outLow outHigh db) (v : Int) :
    mapRange inLow inHigh v outLow outHigh db = some (mapValue inLow inHigh v outLow outHigh db) :=
  if_pos (mapContract_iff_keepsContract.2 h)

theorem mapRange_of_not_keepsContract (h : ¬ Rule.keepsContract inLow inHigh outLow outHigh db) (v : Int) :
    mapRange inLow inHigh v outLow outHigh db = none :=
  if_neg (mapContract_iff_keepsContract.not.2 h)

/-- In contract the mapper computes the formula of R100. -/
theorem mapValue_eq_mapped (h : Rule.keepsContract inLow inHigh outLow outHigh db) (v : Int) :
    mapValue inLow inHigh v outLow outHigh db = Rule.mapped inLow inHigh v outLow outHigh db := by
  obtain ⟨hdb, -, hout⟩ := h
  simp only [mapValue, mapScaled, tdiv, Rule.mapped, clamp_eq_max_min hout, deadbandAdjust_eq hdb, avg_eq]

/-! The deadband (R105). -/

/-- The part of a value above the deadband and the part below it, one of which is 0. -/
theorem deadbandAdjust_eq_max_add_min (hdb : 0 ≤ db) (c : Int) :
    deadbandAdjust c db = max 0 (c - db) + min 0 (c + db) := by
  rw [deadbandAdjust_eq hdb]
  rcases abs_cases c with ⟨habs, _⟩ | ⟨habs, _⟩ <;> rw [habs] <;> split_ifs <;> omega

theorem deadbandAdjust_of_abs_le {c : Int} (h : |c| ≤ db) : deadbandAdjust c db = 0 := by
  have := abs_le.1 h
  rw [deadbandAdjust_eq_max_add_min (le_trans (abs_nonneg c) h)]
  omega

/-- Shrinking toward zero treats both signs alike. -/
theorem deadbandAdjust_neg (hdb : 0 ≤ db) (c : Int) : deadbandAdjust (-c) db = -deadbandAdjust c db := by
  rw [deadbandAdjust_eq_max_add_min hdb, deadbandAdjust_eq_max_add_min hdb]
  omega

theorem deadbandAdjust_mono (hdb : 0 ≤ db) {c d : Int} (h : c ≤ d) : deadbandAdjust c db ≤ deadbandAdjust d db := by
  rw [deadbandAdjust_eq_max_add_min hdb, deadbandAdjust_eq_max_add_min hdb]
  omega

/-! The scaled term (R100). -/

theorem mapScaled_of_abs_le {c : Int} (h : |c| ≤ db) : mapScaled inLow inHigh c outLow outHigh db = 0 := by
  rw [mapScaled, deadbandAdjust_of_abs_le h, Int.zero_mul, tdiv, Int.zero_tdiv]

theorem mapScaled_neg (hdb : 0 ≤ db) (c : Int) :
    mapScaled inLow inHigh (-c) outLow outHigh db = -mapScaled inLow inHigh c outLow outHigh db := by
  simp only [mapScaled, deadbandAdjust_neg hdb, Int.neg_mul, tdiv, Int.neg_tdiv]

theorem mapScaled_mono (h : Rule.keepsContract inLow inHigh outLow outHigh db) {c d : Int} (hcd : c ≤ d) :
    mapScaled inLow inHigh c outLow outHigh db ≤ mapScaled inLow inHigh d outLow outHigh db := by
  obtain ⟨hdb, hspan, hout⟩ := h
  exact tdiv_mono (by omega) (Int.mul_le_mul_of_nonneg_right (deadbandAdjust_mono hdb hcd) (by omega))

/-- An output range of one value leaves nothing to scale. -/
theorem mapScaled_of_point (c out : Int) : mapScaled inLow inHigh c out out db = 0 := by
  rw [mapScaled, Int.sub_self, Int.mul_zero, tdiv, Int.zero_tdiv]

/-! The clamped result (R107). -/

theorem avg_mem {a b : Int} (h : a ≤ b) : a ≤ avg a b ∧ avg a b ≤ b := by
  rw [avg_eq]; omega

/-- A clamp reaches a bound exactly where its argument reaches or passes it, unless both bounds are one value that the
argument misses. -/
theorem clamp_eq_bound_iff {x lo hi : Int} (h : lo ≤ hi) (hpoint : lo = hi → x = lo) :
    (clamp x lo hi = hi ↔ hi ≤ x) ∧ (clamp x lo hi = lo ↔ x ≤ lo) := by
  rw [clamp_eq_max_min h]; omega

/-- The mapped value is on the boundary of the output range exactly where the unclamped value reaches or passes it. -/
theorem mapValue_eq_bound_iff (hout : outLow ≤ outHigh) (v : Int) :
    (mapValue inLow inHigh v outLow outHigh db = outHigh ↔
      outHigh ≤ avg outLow outHigh + mapScaled inLow inHigh (v - avg inLow inHigh) outLow outHigh db) ∧
    (mapValue inLow inHigh v outLow outHigh db = outLow ↔
      avg outLow outHigh + mapScaled inLow inHigh (v - avg inLow inHigh) outLow outHigh db ≤ outLow) := by
  refine clamp_eq_bound_iff hout fun hpoint => ?_
  have := avg_mem hout
  subst hpoint
  rw [mapScaled_of_point]
  omega

theorem mapValue_of_abs_le (hout : outLow ≤ outHigh) {v : Int} (h : |v - avg inLow inHigh| ≤ db) :
    mapValue inLow inHigh v outLow outHigh db = avg outLow outHigh := by
  obtain ⟨hlow, hhigh⟩ := avg_mem hout
  rw [mapValue, mapScaled_of_abs_le h, Int.add_zero, clamp_of_mem hlow hhigh]

theorem mapValue_mono (h : Rule.keepsContract inLow inHigh outLow outHigh db) {v w : Int} (hvw : v ≤ w) :
    mapValue inLow inHigh v outLow outHigh db ≤ mapValue inLow inHigh w outLow outHigh db := by
  obtain ⟨-, -, hout⟩ := id h
  exact clamp_mono hout (Int.add_le_add_left (mapScaled_mono h (Int.sub_le_sub_right hvw _)) _)

end Mapping

/-- Settles O17: each law holds of the mapped value by the like law of the deadband, the scaled term and the clamp. -/
theorem mapRangeObeysItsLaws : Obligations.MapRangeObeysItsLaws := by
  intro inLow inHigh outLow outHigh db h
  obtain ⟨hdb, -, hout⟩ := id h
  simp only [mapRange_of_keepsContract h, Option.some.injEq]
  refine ⟨fun v => ?containment, EncodingProofs.mapValue_center hout, ?monotone, mapScaled_neg hdb,
    fun v hv => mapValue_of_abs_le hout hv⟩
  case containment =>
    obtain ⟨hlow, hhigh⟩ := mapValue_mem hout
    exact ⟨_, rfl, hlow, hhigh, mapValue_eq_bound_iff hout v⟩
  case monotone =>
    rintro v w _ _ hvw rfl rfl
    exact mapValue_mono h hvw

end Sys2Proof.RangeMapperProofs
end

section
/-! The commands MAP, AVG, SIGN and NEGABS: the word that each emits (R101 to R104). -/

namespace Sys2Proof.RangeMapperProofs

open Sys2Proof.Machine Sys2Proof.Laws

section

variable {inLow inHigh inValue outLow outHigh deadband : Word} (s : State)

theorem exec_map_of_keepsContract
    (h : Rule.keepsContract inLow.toInt inHigh.toInt outLow.toInt outHigh.toInt deadband.toInt) :
    exec (.map inLow inHigh inValue outLow outHigh deadband) s = .next (s.emit [pattern 32
      (mapValue inLow.toInt inHigh.toInt inValue.toInt outLow.toInt outHigh.toInt deadband.toInt)]) := by
  change execMap inLow inHigh inValue outLow outHigh deadband s = _
  rw [execMap, mapRange_of_keepsContract h]

theorem exec_map_of_not_keepsContract
    (h : ¬ Rule.keepsContract inLow.toInt inHigh.toInt outLow.toInt outHigh.toInt deadband.toInt) :
    exec (.map inLow inHigh inValue outLow outHigh deadband) s = .next (s.raise .mapDomain).emitFree := by
  change execMap inLow inHigh inValue outLow outHigh deadband s = _
  rw [execMap, mapRange_of_not_keepsContract h]

end

/-- The mapped value of s32 operands is an s32 value, because it lies between two of them (R100). -/
theorem toInt_pattern_mapValue {iL iH v db : Int} {outLow outHigh : Word} (hout : outLow.toInt ≤ outHigh.toInt) :
    (pattern 32 (mapValue iL iH v outLow.toInt outHigh.toInt db)).toInt =
      mapValue iL iH v outLow.toInt outHigh.toInt db := by
  have hmem := mapValue_mem (iL := iL) (iH := iH) (v := v) (db := db) hout
  have hlow := toInt32_range outLow
  have hhigh := toInt32_range outHigh
  exact toInt_pattern32 (by omega) (by omega)

/-- Settles O16: the contract test decides between the word of R100 and ERR_MAP_DOMAIN with one free word. -/
theorem mapEmitsTheMappedValueOrFaults : Obligations.MapEmitsTheMappedValueOrFaults := by
  intro s inLow inHigh inValue outLow outHigh deadband
  refine ⟨EncodingProofs.decode_of_assemble .map 0 rfl (.inl rfl) rfl, fun h => ?inContract, fun h => ?violation⟩
  case inContract =>
    obtain ⟨-, -, hout⟩ := id h
    refine ⟨_, exec_map_of_keepsContract s h, ?_⟩
    rw [toInt_pattern_mapValue hout, mapValue_eq_mapped h]
  case violation =>
    exact ⟨_, exec_map_of_not_keepsContract s h, by simp [State.faulted], Config.freeWord s.free, rfl⟩

/-! The shift form of AVG (R102). -/

theorem toInt_sshiftRight_one (a : Word) : (a.sshiftRight 1).toInt = a.toInt / 2 := by
  rw [BitVec.toInt_sshiftRight, Int.shiftRight_eq_div_pow]; rfl

/-- Bit 0 of a word is the parity of its value. -/
theorem getLsbD_zero_eq_decide (a : Word) : a.getLsbD 0 = decide (a.toInt % 2 = 1) := by
  have hparity : a.toInt % 2 = a.toNat % 2 := by
    rw [BitVec.toInt_eq_toNat_cond]; split <;> omega
  rw [EncodingProofs.getLsbD_eq_decide, hparity]
  exact decide_eq_decide.2 (by omega)

/-- The carry term of the shift form: 1 where both operands are odd. -/
theorem toInt_carry (a b : Word) : (a &&& b &&& 1).toInt = if a.toInt % 2 = 1 ∧ b.toInt % 2 = 1 then 1 else 0 := by
  have hcarry : a &&& b &&& 1 = (BitVec.ofBool (a.getLsbD 0 && b.getLsbD 0)).setWidth 32 := by
    rw [← BitVec.getLsbD_and]
    exact BitVec.and_one_eq_setWidth_ofBool_getLsbD
  rw [hcarry, getLsbD_zero_eq_decide, getLsbD_zero_eq_decide, ← Bool.decide_and]
  split_ifs with hodd <;> simp [hodd]

/-- The shift form is the floor of the exact mean, from a = 2 · (a >>> 1) + (a & 1). -/
theorem toInt_shiftForm (a b : Word) :
    (a.sshiftRight 1 + b.sshiftRight 1 + (a &&& b &&& 1)).toInt = (a.toInt + b.toInt) / 2 := by
  have ha := toInt32_range a
  have hb := toInt32_range b
  rw [BitVec.toInt_add, BitVec.toInt_add, toInt_sshiftRight_one, toInt_sshiftRight_one, toInt_carry]
  rw [Int.bmod_def, Int.bmod_def]
  split_ifs <;> omega

/-- Settles O18: the word emitted and the shift form are both the pattern of the floor mean. -/
theorem avgEmitsTheFloorMeanInShiftForm : Obligations.AvgEmitsTheFloorMeanInShiftForm := by
  intro s a b
  refine ⟨EncodingProofs.decode_of_assemble .avg 0 rfl (.inl rfl) rfl, ?emitted, toInt_shiftForm a b, by omega,
    by omega⟩
  case emitted =>
    rw [← pattern_toInt (a.sshiftRight 1 + b.sshiftRight 1 + (a &&& b &&& 1)), toInt_shiftForm, ← avg_eq]
    rfl

/-! The sign and the negated absolute value (R103, R104). -/

/-- The word that stores a sign. -/
theorem pattern_signOf (x : Word) :
    pattern 32 (signOf x.toInt) = if x.toInt < 0 then 0xFFFFFFFF else if x = 0 then 0 else 1 := by
  have hzero : x.toInt = 0 ↔ x = 0 := BitVec.toInt_inj (y := 0)
  simp only [signOf, hzero]
  split_ifs <;> rfl

/-- Settles O19. -/
theorem signEmitsMinusOneZeroOrOne : Obligations.SignEmitsMinusOneZeroOrOne := by
  intro s x
  refine ⟨EncodingProofs.decode_of_assemble .sign 0 rfl (.inl rfl) rfl, ?_⟩
  rw [← pattern_signOf]
  rfl

theorem negabs_eq (x : Int) : negabs x = -|x| := by
  unfold negabs; split
  · rw [abs_of_nonpos (by omega), neg_neg]
  · rw [abs_of_pos (by omega)]

/-- The negated absolute value of an s32 value is one too, -2^31 included. -/
theorem toInt_pattern_negabs (x : Word) : (pattern 32 (negabs x.toInt)).toInt = -|x.toInt| := by
  have hx := toInt32_range x
  have habs : |x.toInt| ≤ 2 ^ 31 := abs_le.2 (by omega)
  have := abs_nonneg x.toInt
  rw [negabs_eq, toInt_pattern32 (by omega) (by omega)]

theorem pattern_negabs (x : Word) : pattern 32 (negabs x.toInt) = x ∨ pattern 32 (negabs x.toInt) = -x := by
  unfold negabs; split
  · exact .inl (pattern_toInt x)
  · exact .inr (by rw [pattern, BitVec.ofInt_neg, BitVec.ofInt_toInt])

/-- Settles O20. -/
theorem negabsEmitsTheNegatedAbsoluteValue : Obligations.NegabsEmitsTheNegatedAbsoluteValue := fun _ x =>
  ⟨EncodingProofs.decode_of_assemble .negabs 0 rfl (.inl rfl) rfl, _, rfl, toInt_pattern_negabs x, pattern_negabs x⟩

end Sys2Proof.RangeMapperProofs
end

section
/-! SUPPORT. The step of the PID controller against the formulas of R131: the clamp, the output and the integral within
their limits, and the first step, which has no derivative. -/

namespace Sys2Proof.PidProofs

open Sys2Proof.Machine Sys2Proof.Laws

section Controller

variable {p : PidState}

/-! The step as the formulas of R131. -/

/-- A value clamped between two s64 limits is stored without loss. -/
theorem toInt_pattern_limit (hlimits : p.outMin.toInt ≤ p.outMax.toInt) (x : Int) :
    (pattern 64 (p.limit x)).toInt = p.limit x := by
  have hmem := limit_mem hlimits x
  have hmin := toInt64_range p.outMin
  have hmax := toInt64_range p.outMax
  exact toInt_pattern64 (by omega) (by omega)

theorem limit_eq_bounded (hlimits : p.outMin.toInt ≤ p.outMax.toInt) (x : Int) : p.limit x = Rule.bounded p x :=
  clamp_eq_max_min hlimits

theorem stepIntegral_eq_nextIntegral (hlimits : p.outMin.toInt ≤ p.outMax.toInt) (meas : Int) :
    p.stepIntegral meas = Rule.nextIntegral p meas := limit_eq_bounded hlimits _

/-- The derivative is the term that R131 subtracts. -/
theorem stepDerivative_eq (meas : Int) :
    p.stepDerivative meas = -(if p.runCount = 0 then 0 else Rule.product p.zd.toInt (meas - p.prevMeas.toInt)) := by
  unfold PidState.stepDerivative
  split_ifs <;> rfl

/-- The accumulating output adds PREV_OUT to the three terms of R131, the other one nothing. -/
theorem stepRaw_eq (meas : Int) :
    p.stepRaw meas = (if p.omode = .accumulating then p.prevOut.toInt else 0) +
      (Rule.product p.zp.toInt (p.setpoint.toInt - meas) + p.stepIntegral meas + p.stepDerivative meas) := by
  unfold PidState.stepRaw
  cases p.omode with
  | accumulating => rw [if_pos rfl]; rfl
  | nonAccumulating => rw [if_neg (by decide), Int.zero_add]; rfl

theorem stepRaw_eq_rawOutput (hlimits : p.outMin.toInt ≤ p.outMax.toInt) (meas : Int) :
    p.stepRaw meas = Rule.rawOutput p meas := by
  rw [stepRaw_eq, stepIntegral_eq_nextIntegral hlimits, stepDerivative_eq, Rule.rawOutput]
  ring

theorem stepOut_eq_output (hlimits : p.outMin.toInt ≤ p.outMax.toInt) (meas : Int) :
    p.stepOut meas = Rule.output p meas := by
  rw [PidState.stepOut, limit_eq_bounded hlimits, stepRaw_eq_rawOutput hlimits, Rule.output]

/-- The PID elements after a step, for every measurement that is an s64 value (R131). -/
theorem stepped_pidStepped (hlimits : p.outMin.toInt ≤ p.outMax.toInt) {meas : Int} (hlow : -2 ^ 63 ≤ meas)
    (hhigh : meas < 2 ^ 63) : Rule.pidStepped p (p.stepped meas) meas := by
  refine ⟨?integral, toInt_pattern64 hlow hhigh, ?output, satinc32_toNat p.runCount, rfl⟩
  case integral => exact (toInt_pattern_limit hlimits _).trans (stepIntegral_eq_nextIntegral hlimits meas)
  case output => exact (toInt_pattern_limit hlimits _).trans (stepOut_eq_output hlimits meas)

/-! The limits after a step (R135). -/

/-- What a clamp stored lies between the limits. -/
theorem pattern_limit_mem (hlimits : p.outMin.toInt ≤ p.outMax.toInt) (x : Int) :
    p.outMin.toInt ≤ (pattern 64 (p.limit x)).toInt ∧ (pattern 64 (p.limit x)).toInt ≤ p.outMax.toInt := by
  rw [toInt_pattern_limit hlimits]
  exact limit_mem hlimits x

/-- A step leaves the limits as they are, and PREV_OUT and INTEGRAL between them. -/
theorem stepped_within_limits (hlimits : p.outMin.toInt ≤ p.outMax.toInt) (meas : Int) :
    (p.stepped meas).outMin = p.outMin ∧ (p.stepped meas).outMax = p.outMax ∧
    p.outMin.toInt ≤ (p.stepped meas).prevOut.toInt ∧ (p.stepped meas).prevOut.toInt ≤ p.outMax.toInt ∧
    p.outMin.toInt ≤ (p.stepped meas).integral.toInt ∧ (p.stepped meas).integral.toInt ≤ p.outMax.toInt := by
  obtain ⟨houtLow, houtHigh⟩ := pattern_limit_mem hlimits (p.stepRaw meas)
  obtain ⟨hintLow, hintHigh⟩ := pattern_limit_mem hlimits (sval p.integral + mulfx (sval p.zi) (p.error meas))
  exact ⟨rfl, rfl, houtLow, houtHigh, hintLow, hintHigh⟩

/-! The first step (R136): ZD and PREV_MEAS, which only the derivative reads, have no effect. -/

theorem stepDerivative_first (hfirst : p.runCount = 0) (meas : Int) : p.stepDerivative meas = 0 := if_pos hfirst

theorem stepRaw_first (hfirst : p.runCount = 0) (zd prev : Dword) (meas : Int) :
    ({ p with zd := zd, prevMeas := prev } : PidState).stepRaw meas = p.stepRaw meas := by
  simp only [PidState.stepRaw]
  rw [stepDerivative_first hfirst, stepDerivative_first (p := { p with zd := zd, prevMeas := prev }) hfirst]
  rfl

theorem stepOut_first (hfirst : p.runCount = 0) (zd prev : Dword) (meas : Int) :
    ({ p with zd := zd, prevMeas := prev } : PidState).stepOut meas = p.stepOut meas := by
  rw [PidState.stepOut, stepRaw_first hfirst]
  rfl

theorem stepped_first (hfirst : p.runCount = 0) (zd prev : Dword) (meas : Int) :
    ({ p with zd := zd, prevMeas := prev } : PidState).stepped meas = { p.stepped meas with zd := zd } := by
  rw [PidState.stepped, stepOut_first hfirst]
  rfl

theorem stepped_runCount_first (hfirst : p.runCount = 0) (meas : Int) : (p.stepped meas).runCount = 1 := by
  change satinc 32 p.runCount = 1
  rw [hfirst]
  rfl

end Controller

/-! The gyro-stabilized tick, which makes a step too (R231, R233). -/

section Tick

variable {s : State}

/-- A gyro-stabilized tick in contract without a gyro error. -/
theorem exec_ctrlTick_gyro (gx gy gz : Half) (hrun : s.seq.loopRun = true) (hvalid : s.chan.valid = true)
    (hmode : s.seq.mode = .gyroStabilized) (hcontract : Rule.tickInContract s) :
    exec (.ctrlTick gx gy gz false) s = .next (s.toggleLoop.mixGyro gz) := by
  change execCtrlTick gx gy gz false s = _
  rw [execCtrlTick_valid gx gy gz false hrun hvalid, validTick_noError gz (Bool.and_false _),
    mix_gyro (s := s.toggleLoop) gz ((contractHolds_iff s.loop).2 hcontract) hmode]

theorem yawCorrection_first (hfirst : s.pid.runCount = 0) (gz : Half) (zd prev : Dword) :
    ({ s with pid := { s.pid with zd := zd, prevMeas := prev } } : State).yawCorrection gz = s.yawCorrection gz :=
  congrArg unfx (stepOut_first (p := s.yawPid) hfirst zd prev (s.yawMeasurement gz))

theorem yawPid_stepped_first (hfirst : s.pid.runCount = 0) (gz : Half) (zd prev : Dword) :
    ({ s with pid := { s.pid with zd := zd, prevMeas := prev } } : State).yawPid.stepped
      (({ s with pid := { s.pid with zd := zd, prevMeas := prev } } : State).yawMeasurement gz) =
      { s.yawPid.stepped (s.yawMeasurement gz) with zd := zd } :=
  stepped_first (p := s.yawPid) hfirst zd prev (s.yawMeasurement gz)

theorem mixGyro_first (hfirst : s.pid.runCount = 0) (gz : Half) (zd prev : Dword) :
    ({ s with pid := { s.pid with zd := zd, prevMeas := prev } } : State).mixGyro gz =
      { s.mixGyro gz with pid := { (s.mixGyro gz).pid with zd := zd } } := by
  rw [State.mixGyro, yawCorrection_first hfirst, yawPid_stepped_first hfirst]
  rfl

end Tick

end Sys2Proof.PidProofs
end

section
/-! SUPPORT. The gains that PID_CONFIGURE and PID_SET_PERIOD compute, and when these commands are refused (R130,
R133). -/

namespace Sys2Proof.PidProofs

open Sys2Proof.Machine Sys2Proof.Laws

/-! Gains. -/

/-- A saturated value is stored without loss. -/
theorem toInt_pattern_sat64 (x : Int) : (pattern 64 (sat 64 x)).toInt = sat 64 x := by
  rw [sat64_eq]
  exact toInt_pattern64 (by omega) (by omega)

/-- A gain of PID_CONFIGURE is not negative, so its negative is an s64 value too (R130). -/
theorem toInt_pattern_directed (dir : Direction) {z : Int} (hlow : 0 ≤ z) (hhigh : z < 2 ^ 63) :
    (pattern 64 (directed dir z)).toInt = (if dir = .reverse then -1 else 1) * z := by
  cases dir with
  | direct => rw [if_neg (by decide), Int.one_mul]; exact toInt_pattern64 (x := z) (by omega) hhigh
  | reverse => rw [if_pos rfl, Int.neg_one_mul]; exact toInt_pattern64 (x := -z) (by omega) (by omega)

/-- A gain that is a quotient of values that are not negative saturates at the upper end only, and is rounded down. -/
theorem toInt_pattern_directed_sat (dir : Direction) {a b : Int} (ha : 0 ≤ a) (hb : 0 < b) :
    (pattern 64 (directed dir (sat 64 (tdiv a b)))).toInt =
      (if dir = .reverse then -1 else 1) * min (2 ^ 63 - 1) (a / b) := by
  have hquotient : 0 ≤ a / b := Int.ediv_nonneg ha hb.le
  have hsat : sat 64 (tdiv a b) = min (2 ^ 63 - 1) (a / b) := by
    rw [sat64_eq, tdiv, Int.tdiv_eq_ediv_of_nonneg ha]
    omega
  rw [hsat]
  exact toInt_pattern_directed dir (by omega) (by omega)

/-- Rescaling a gain by a ratio of 1 gives the same element (R133). -/
theorem pattern_sat64_same_ratio (z : Dword) {b : Int} (hb : b ≠ 0) :
    pattern 64 (sat 64 (tdiv (z.toInt * b) b)) = z := by
  have hz := toInt64_range z
  have hsat : sat 64 z.toInt = z.toInt := clamp_of_mem hz.1 (by omega)
  rw [tdiv, Int.mul_tdiv_cancel _ hb, hsat, pattern_toInt]

/-! Refusal. -/

section

variable {s : State} {kp ki kd outMin outMax sp : Dword} {dir : Direction} {omode : OutputMode} {t : Word}

theorem configureRefused_iff : configureRefused kp ki kd t outMin outMax = true ↔
    kp.toInt < 0 ∨ ki.toInt < 0 ∨ kd.toInt < 0 ∨ t.toInt ≤ 0 ∨ outMax.toInt ≤ outMin.toInt := by
  simp only [configureRefused, Bool.or_eq_true, decide_eq_true_eq, ge_iff_le, or_assoc]

theorem exec_pidConfigure_refused
    (h : kp.toInt < 0 ∨ ki.toInt < 0 ∨ kd.toInt < 0 ∨ t.toInt ≤ 0 ∨ outMax.toInt ≤ outMin.toInt) :
    exec (.pidConfigure kp ki kd dir omode t outMin outMax sp) s = .next s :=
  if_pos (configureRefused_iff.2 h)

theorem exec_pidConfigure_accepted
    (h : 0 ≤ kp.toInt ∧ 0 ≤ ki.toInt ∧ 0 ≤ kd.toInt ∧ 0 < t.toInt ∧ outMin.toInt < outMax.toInt) :
    exec (.pidConfigure kp ki kd dir omode t outMin outMax sp) s =
      .next { s with pid := PidState.configured kp ki kd dir omode t outMin outMax sp } :=
  if_neg (configureRefused_iff.not.2 (by omega))

theorem exec_pidSetPeriod_refused (h : t.toInt ≤ 0) : exec (.pidSetPeriod t) s = .next s := if_pos h

theorem exec_pidSetPeriod_accepted (hold : 1 ≤ s.pid.period.toInt) (h : 0 < t.toInt) :
    exec (.pidSetPeriod t) s = .next { s with pid := { s.pid with
      zi := pattern 64 (retuneIntegral s.pid.zi.toInt t.toInt s.pid.period.toInt)
      zd := pattern 64 (retuneDerivative s.pid.zd.toInt t.toInt s.pid.period.toInt)
      period := t } } := by
  have hne : s.pid.period.toInt ≠ 0 := by omega
  change execPidSetPeriod t s = _
  rw [execPidSetPeriod, if_neg (not_le.2 h), if_neg hne]

end

end Sys2Proof.PidProofs
end

section
/-! The statements about the PID controller (R130 to R136). -/

namespace Sys2Proof.PidProofs

open Sys2Proof.Machine Sys2Proof.Laws

/-- Settles O21: the refusal test decides, and each gain is a quotient of values that are not negative. -/
theorem pidConfigureSetsEveryElementOrNothing : Obligations.PidConfigureSetsEveryElementOrNothing := by
  intro s kp ki kd dir omode t outMin outMax sp
  refine ⟨EncodingProofs.decode_of_assemble .pidConfigure 0 rfl (.inl rfl)
      (EncodingProofs.assemble_operandList (.pidConfigure kp ki kd dir omode t outMin outMax sp)),
    exec_pidConfigure_refused, fun hvalid => ?accepted⟩
  obtain ⟨hkp, hki, hkd, ht, -⟩ := id hvalid
  refine ⟨_, exec_pidConfigure_accepted hvalid, ?proportional,
    toInt_pattern_directed_sat dir (Int.mul_nonneg hki ht.le) (by decide),
    toInt_pattern_directed_sat dir (Int.mul_nonneg hkd (by decide)) ht,
    rfl, rfl, rfl, rfl, rfl, rfl, rfl, rfl, rfl, rfl⟩
  case proportional =>
    rw [PidState.configured, toInt_pattern_directed dir hkp (toInt64_range kp).2]
    split_ifs <;> omega

/-- Settles O22. -/
theorem pidRunMakesOneStepAndEmitsTheOutput : Obligations.PidRunMakesOneStepAndEmitsTheOutput := by
  refine ⟨fun a b => EncodingProofs.decode_of_assemble .pidRun 0 rfl (.inl rfl) rfl, fun s meas hlimits => ?_⟩
  obtain ⟨hlow, hhigh⟩ := toInt64_range meas
  refine ⟨_, _, _, rfl, stepped_pidStepped hlimits hlow hhigh, ?emitted⟩
  case emitted =>
    calc (dwordOf (loWord _) (hiWord _)).toInt
      _ = (pattern 64 (s.pid.stepOut meas.toInt)).toInt := by rw [dwordOf_words]
      _ = s.pid.stepOut meas.toInt := toInt_pattern_limit hlimits _
      _ = Rule.output s.pid meas.toInt := stepOut_eq_output hlimits _

/-- Settles O23: both commands make a step, and the tick's set-point is no limit. -/
theorem pidOutputStaysWithinItsLimits : Obligations.PidOutputStaysWithinItsLimits := by
  intro s t meas gx gy gz i hlimits hi hexec
  obtain rfl | ⟨rfl, hrun, hvalid, hmode, hcontract⟩ := hi
  · cases hexec
    exact stepped_within_limits hlimits _
  · rw [exec_ctrlTick_gyro gx gy gz hrun hvalid hmode hcontract] at hexec
    cases hexec
    exact stepped_within_limits (p := s.yawPid) hlimits _

/-- Settles O24: on the first step only the derivative would read ZD and PREV_MEAS. -/
theorem firstPidRunHasNoDerivative : Obligations.FirstPidRunHasNoDerivative := by
  refine ⟨fun s meas zd prev hfirst => ?run, fun s gx gy gz zd prev hfirst hrun hvalid hmode hcontract => ?tick, rfl,
    fun s t kp ki kd dir omode per lo hi sp hvalid hexec => ?configure⟩
  case run =>
    refine ⟨_, rfl, stepped_runCount_first hfirst _, ?_⟩
    change execPidRun meas _ = _
    rw [execPidRun, stepped_first hfirst, stepOut_first hfirst]
    rfl
  case tick =>
    refine ⟨_, exec_ctrlTick_gyro gx gy gz hrun hvalid hmode hcontract,
      stepped_runCount_first (p := s.toggleLoop.yawPid) hfirst _, ?_⟩
    exact (exec_ctrlTick_gyro (s := { s with pid := { s.pid with zd := zd, prevMeas := prev } }) gx gy gz hrun hvalid
      hmode hcontract).trans (congrArg _ (mixGyro_first (s := s.toggleLoop) hfirst gz zd prev))
  case configure =>
    rw [exec_pidConfigure_accepted hvalid] at hexec
    cases hexec
    rfl

/-- Settles O26. -/
theorem pidSetLimitsStoresOrIgnores : Obligations.PidSetLimitsStoresOrIgnores := by
  refine ⟨fun a b c d => EncodingProofs.decode_of_assemble .pidSetLimits 0 rfl (.inl rfl) rfl, fun s lo hi => ?_⟩
  change execPidSetLimits lo hi s = _
  rw [execPidSetLimits]
  by_cases hlimits : lo.toInt < hi.toInt
  · rw [if_neg (not_le.2 hlimits), if_pos hlimits]
  · rw [if_pos (not_lt.1 hlimits), if_neg hlimits]

/-- Settles O27: with the period as it was both ratios are 1. -/
theorem pidSetPeriodRescalesTheGains : Obligations.PidSetPeriodRescalesTheGains := by
  intro s t hold
  refine ⟨EncodingProofs.decode_of_assemble .pidSetPeriod 0 rfl (.inl rfl) rfl, exec_pidSetPeriod_refused,
    fun hsame => ?same, fun ht => ?rescaled⟩
  case same =>
    subst hsame
    have hne : s.pid.period.toInt ≠ 0 := by omega
    rw [exec_pidSetPeriod_accepted hold (by omega), retuneIntegral, retuneDerivative, pattern_sat64_same_ratio _ hne,
      pattern_sat64_same_ratio _ hne]
  case rescaled =>
    exact ⟨_, _, exec_pidSetPeriod_accepted hold ht, (toInt_pattern_sat64 _).trans (sat64_eq _),
      (toInt_pattern_sat64 _).trans (sat64_eq _)⟩

/-- Settles O28. -/
theorem pidSetSetpointStoresTheSetpoint : Obligations.PidSetSetpointStoresTheSetpoint :=
  ⟨fun _ _ => EncodingProofs.decode_of_assemble .pidSetSetpoint 0 rfl (.inl rfl) rfl, fun _ _ => rfl⟩

end Sys2Proof.PidProofs
end

section
/-! SUPPORT. The PulseDecoder command by command: the rows of the transition table R164 as equations of the decoder, and
the states a completed CAP_PERIOD leaves (R160 to R164). -/

namespace Sys2Proof.DecoderProofs

open Sys2Proof.Machine Sys2Proof.Laws Sys2Proof.EncodingProofs

/-! The PulseAccumulator after a period p, with the high width p − NEG_WIDTH. -/

section Rows

variable {d : PulseAccumulator} {cfg : InputConfig} {p : Word} {pos : Int}

/-- Row 1 of R164. -/
theorem sync_plausible (hpos : Rule.isPlausible cfg pos) :
    d.sync cfg pos =
      { d with phase := .accumulating, index := 1, buf := d.buf.set 0 (Rule.stored cfg pos) } :=
  if_pos (plausible_iff.2 hpos)

/-- Row 2 of R164. -/
theorem sync_implausible (hpos : ¬ Rule.isPlausible cfg pos) :
    d.sync cfg pos = { d with phase := .seeking, index := 0 } :=
  if_neg (plausible_iff.not.2 hpos)

/-- A low width past SYNC_GAP is a sync event in either phase (R161). -/
theorem onPeriod_sync (hgap : cfg.syncGap.toNat < d.negWidth.toNat) :
    d.onPeriod cfg p = some (d.sync cfg (p.toNat - d.negWidth.toNat)) :=
  if_pos (by exact_mod_cast hgap)

/-- Row 3 of R164. -/
theorem onPeriod_seeking (hlow : d.negWidth.toNat ≤ cfg.syncGap.toNat) (hphase : d.phase = .seeking) :
    d.onPeriod cfg p = some d := by
  rw [PulseAccumulator.onPeriod, hphase]
  exact if_neg (by simpa using hlow)

/-- Inside a frame the two widths decide, unless the low one is a sync gap (R161). -/
theorem onPeriod_accumulating (hlow : d.negWidth.toNat ≤ cfg.syncGap.toNat) (hphase : d.phase = .accumulating) :
    d.onPeriod cfg p =
      if plausible cfg d.negWidth.toNat && plausible cfg (p.toNat - d.negWidth.toNat) then
        d.append cfg (p.toNat - d.negWidth.toNat)
      else some d.abort := by
  rw [PulseAccumulator.onPeriod, hphase]
  exact if_neg (by simpa using hlow)

/-- Two plausible widths inside a frame are appended (R161). -/
theorem onPeriod_append (hlow : d.negWidth.toNat ≤ cfg.syncGap.toNat) (hphase : d.phase = .accumulating)
    (hn : Rule.isPlausible cfg d.negWidth.toNat) (hpos : Rule.isPlausible cfg (p.toNat - d.negWidth.toNat)) :
    d.onPeriod cfg p = d.append cfg (p.toNat - d.negWidth.toNat) := by
  rw [onPeriod_accumulating hlow hphase]
  exact if_pos (Bool.and_eq_true_iff.2 ⟨plausible_iff.2 hn, plausible_iff.2 hpos⟩)

/-- Row 6 of R164. -/
theorem onPeriod_abort (hlow : d.negWidth.toNat ≤ cfg.syncGap.toNat) (hphase : d.phase = .accumulating)
    (hbad : ¬ Rule.isPlausible cfg d.negWidth.toNat ∨ ¬ Rule.isPlausible cfg (p.toNat - d.negWidth.toNat)) :
    d.onPeriod cfg p = some { d with phase := .seeking, index := 0 } := by
  rw [onPeriod_accumulating hlow hphase]
  refine if_neg fun h => ?_
  obtain ⟨hn, hpos⟩ := Bool.and_eq_true_iff.1 h
  exact hbad.elim (· (plausible_iff.1 hn)) (· (plausible_iff.1 hpos))

/-- The slots of row 4 of R164. -/
theorem append_firstPair (hindex : d.index = 1) (pos : Int) :
    d.append cfg pos = some { d with
      index := 3
      buf := (d.buf.set 1 (Rule.stored cfg d.negWidth.toNat)).set 2 (Rule.stored cfg pos) } := by
  obtain ⟨_, _, _, _⟩ := d
  cases hindex
  rfl

/-- The slots of row 5 of R164. -/
theorem append_secondPair (hindex : d.index = 3) (pos : Int) :
    d.append cfg pos = some { d with
      index := 5
      buf := (d.buf.set 3 (Rule.stored cfg d.negWidth.toNat)).set 4 (Rule.stored cfg pos) } := by
  obtain ⟨_, _, _, _⟩ := d
  cases hindex
  rfl

end Rows

/-! The command. -/

section Command

variable {s : State} {d : PulseAccumulator} {p now : Word}

/-- A CAP_PERIOD that completes no frame changes the PulseAccumulator alone (R161). -/
theorem exec_capPeriod_open (hd : s.dec.onPeriod s.inp p = some d) (hopen : d.index ≠ 5) :
    exec (.capPeriod p now) s = .next { s with dec := d } := by
  simp only [exec, execCapPeriod, hd]
  exact if_neg fun h => hopen h.2

/-- A CAP_PERIOD that completes a frame commits it (R163). -/
theorem exec_capPeriod_commit (hd : s.dec.onPeriod s.inp p = some d) (hphase : d.phase = .accumulating)
    (hindex : d.index = 5) : exec (.capPeriod p now) s = .next (State.commit { s with dec := d } now) := by
  simp only [exec, execCapPeriod, hd]
  exact if_pos ⟨hphase, hindex⟩

/-- While Seeking, a CAP_PERIOD without a sync gap changes nothing, whatever INDEX is (R161). -/
theorem exec_capPeriod_seeking (hlow : s.dec.negWidth.toNat ≤ s.inp.syncGap.toNat) (hphase : s.dec.phase = .seeking) :
    exec (.capPeriod p now) s = .next s := by
  simp only [exec, execCapPeriod, onPeriod_seeking hlow hphase]
  exact if_neg fun ⟨hacc, _⟩ => by rw [hphase] at hacc; cases hacc

end Command

end Sys2Proof.DecoderProofs
end

section
/-! The statements about the PulseDecoder (R160 to R166). -/

namespace Sys2Proof.DecoderProofs

open Sys2Proof.Machine Sys2Proof.Laws Sys2Proof.EncodingProofs

/-- Settles O29. -/
theorem capWidthRecordsTheLowWidth : Obligations.CapWidthRecordsTheLowWidth :=
  fun _ _ => ⟨decode_of_assemble .capWidth 0 rfl (.inl rfl) rfl, rfl⟩

/-- Settles O30, row by row: each row gives the PulseAccumulator, and only row 5 leaves it with INDEX 5. -/
theorem capPeriodFollowsTheTransitionTable : Obligations.CapPeriodFollowsTheTransitionTable := by
  refine ⟨fun p now => decode_of_assemble .capPeriod 0 rfl (.inl rfl) rfl, fun s p now n pos hn hpos => ?_⟩
  subst hn hpos
  simp only [gt_iff_lt, Nat.cast_lt, Nat.cast_le]
  refine ⟨rfl, fun hgap hp => ?row1, fun hgap hp => ?row2, exec_capPeriod_seeking,
    fun hlow hphase hindex hn hp => ?row4, fun hlow hphase hindex hn hp => ?row5, fun hlow hphase hbad => ?row6⟩
  case row1 => exact exec_capPeriod_open ((onPeriod_sync hgap).trans (congrArg some (sync_plausible hp))) (by simp)
  case row2 => exact exec_capPeriod_open ((onPeriod_sync hgap).trans (congrArg some (sync_implausible hp))) (by simp)
  case row4 =>
    exact exec_capPeriod_open ((onPeriod_append hlow hphase hn hp).trans (append_firstPair hindex _)) (by simp)
  case row5 =>
    exact ⟨_, rfl,
      exec_capPeriod_commit ((onPeriod_append hlow hphase hn hp).trans (append_secondPair hindex _)) hphase rfl⟩
  case row6 => exact exec_capPeriod_open (onPeriod_abort hlow hphase hbad) (by simp)

/-- The captures of one frame take the decoder through rows 1, 4 and 5 of R164, from whatever state; each CAP_PERIOD has
a time of its own, where PPM_FRAME has one for all three. -/
theorem execAll_frame {s : State} {g s0 s1 s2 s3 s4 : Word} (t0 t1 t2 : Word)
    (hgap : s.inp.syncGap.toNat < g.toNat) (hfit : g.toNat + s0.toNat < 2 ^ 32)
    (hlow1 : s1.toNat ≤ s.inp.syncGap.toNat) (hlow3 : s3.toNat ≤ s.inp.syncGap.toNat)
    (hslots : ∀ w ∈ [s0, s1, s2, s3, s4], Rule.isPlausible s.inp w.toNat) :
    execAll [.capWidth g, .capPeriod (g + s0) t0, .capWidth s1, .capPeriod (s1 + s2) t1, .capWidth s3,
        .capPeriod (s3 + s4) t2] s =
      .next (State.commit { s with dec :=
        ⟨.accumulating, 5, #v[s0, s1, s2, s3, s4].map (fun w => Rule.stored s.inp w.toNat), s3⟩ } t2) := by
  simp only [List.forall_mem_cons, List.not_mem_nil, false_implies, implies_true, and_true] at hslots
  obtain ⟨h0, h1, h2, h3, h4⟩ := hslots
  calc execAll _ s
    _ = execAll [.capWidth s1, .capPeriod (s1 + s2) t1, .capWidth s3, .capPeriod (s3 + s4) t2]
          { s with dec := ⟨.accumulating, 1, _, g⟩ } := execAll_capture (onPeriod_gap hgap hfit h0) (by simp)
    _ = execAll [.capWidth s3, .capPeriod (s3 + s4) t2] { s with dec := ⟨.accumulating, 3, _, s1⟩ } :=
          execAll_capture (onPeriod_firstPair hlow1 h1 h2) (by simp)
    _ = .next (State.commit { s with dec := ⟨.accumulating, 5, _, s3⟩ } t2) :=
          execAll_capture_commit (onPeriod_secondPair hlow3 h3 h4) rfl rfl
    _ = _ := by rw [← set_five_slots s.dec.buf]

/-- Settles O31. -/
theorem oneGapAndTwoPairsCommitOneFrame : Obligations.OneGapAndTwoPairsCommitOneFrame := by
  intro s g s0 s1 s2 s3 s4 t0 t1 t2 hgap hlow1 hlow3 hslots hfit
  rw [execAll_frame t0 t1 t2 hgap hfit hlow1 hlow3 hslots]
  simp [State.commit]

end Sys2Proof.DecoderProofs
end

section
/-! SUPPORT. What each command leaves of the parts of the invariant of R37: the decoder, the modes, the PID, the calibrator
and the weapon under the latch. -/

namespace Sys2Proof.InvariantProofs

open Sys2Proof.Machine Sys2Proof.Laws Sys2Proof.StateProofs

variable {i : Instr} {s t : State}

/-! The decoder (R37 items 1 and 2). -/

/-- From INDEX 1 or 3 a period leads back into the invariant, or to the INDEX 5 that the same CAP_PERIOD commits. -/
theorem onPeriod_keeps_inv_or_completes {d e : PulseAccumulator} {cfg : InputConfig} {p : Word} (hinv : d.Inv)
    (h : d.onPeriod cfg p = some e) : e.Inv ∨ (e.phase = .accumulating ∧ e.index = 5) := by
  obtain ⟨-, ⟨hphase, hindex⟩ | ⟨hphase, hindex⟩ | ⟨hold, hphase, hindex⟩ | ⟨-, rfl⟩⟩ := onPeriod_cases h
  · exact .inl ⟨fun _ => hindex, by simp [hphase]⟩
  · exact .inl ⟨by simp [hphase], fun _ => .inl hindex⟩
  · obtain ⟨-, hslot⟩ := hinv
    obtain hone | hthree := hslot hold
    · exact .inl ⟨by simp [hphase], fun _ => .inr (by rw [hindex, hone]; rfl)⟩
    · exact .inr ⟨hphase, by rw [hindex, hthree]; rfl⟩
  · exact .inl hinv

theorem execCapPeriod_keeps_dec {p now : Word} (hinv : s.dec.Inv) (h : execCapPeriod p now s = .next t) : t.dec.Inv := by
  obtain ⟨d, hd, ⟨rfl, hopen⟩ | ⟨rfl, -⟩⟩ := execCapPeriod_cases h
  · exact (onPeriod_keeps_inv_or_completes hinv hd).resolve_right hopen
  · exact ⟨fun _ => rfl, by simp⟩

/-- No other command changes PHASE or INDEX. -/
theorem exec_keeps_dec (hinv : s.dec.Inv) (h : exec i s = .next t) : t.dec.Inv := by
  cases exec_effect h with
  | period => exact execCapPeriod_keeps_dec hinv h
  | commit => exact execCapPeriod_keeps_dec hinv h
  | _ => exact hinv

/-! The PID (R37 items 6 and 7). -/

/-- What PID_CONFIGURE accepts is within the invariant. -/
theorem exec_pidConfigure_keeps_pid {kp ki kd lo hi sp : Dword} {dir : Direction} {omode : OutputMode} {per : Word}
    (hinv : s.pid.Inv) (h : exec (.pidConfigure kp ki kd dir omode per lo hi sp) s = .next t) : t.pid.Inv := by
  by_cases hvalid : 0 ≤ kp.toInt ∧ 0 ≤ ki.toInt ∧ 0 ≤ kd.toInt ∧ 0 < per.toInt ∧ lo.toInt < hi.toInt
  · rw [PidProofs.exec_pidConfigure_accepted hvalid] at h
    cases h
    obtain ⟨-, -, -, hper, hlimits⟩ := hvalid
    exact ⟨hper, .inr hlimits⟩
  · rw [PidProofs.exec_pidConfigure_refused (by omega)] at h
    cases h
    exact hinv

/-- PID_SET_LIMITS stores only limits in order. -/
theorem exec_pidSetLimits_keeps_pid {lo hi : Dword} (hinv : s.pid.Inv) (h : exec (.pidSetLimits lo hi) s = .next t) :
    t.pid.Inv := by
  obtain ⟨hper, -⟩ := id hinv
  obtain ⟨-, hexec⟩ := PidProofs.pidSetLimitsStoresOrIgnores
  rw [hexec] at h
  split at h <;> cases h
  · rename_i hlimits; exact ⟨hper, .inr hlimits⟩
  · exact hinv

/-- PID_SET_PERIOD stores only a positive period. -/
theorem exec_pidSetPeriod_keeps_pid {per : Word} (hinv : s.pid.Inv) (h : exec (.pidSetPeriod per) s = .next t) :
    t.pid.Inv := by
  obtain ⟨hold, hlimits⟩ := id hinv
  by_cases hper : per.toInt ≤ 0
  · rw [PidProofs.exec_pidSetPeriod_refused hper] at h
    cases h
    exact hinv
  · have hpos : 0 < per.toInt := by omega
    rw [PidProofs.exec_pidSetPeriod_accepted hold hpos] at h
    cases h
    exact ⟨hpos, hlimits⟩

/-- A PID step and a tick, also a violating one, keep the period and the limits. -/
theorem exec_keeps_pid (hinv : s.pid.Inv) (h : exec i s = .next t) : t.pid.Inv := by
  cases exec_effect h with
  | configure => exact exec_pidConfigure_keeps_pid hinv h
  | limits => exact exec_pidSetLimits_keeps_pid hinv h
  | retune => exact exec_pidSetPeriod_keeps_pid hinv h
  | tick gx gy gz gerr q p md k htick hmd =>
    obtain ⟨-, -, hper⟩ := htick.settings
    obtain ⟨hmin, hmax⟩ := htick.limits
    simpa only [PidState.Inv, hper, hmin, hmax] using hinv
  | _ => exact hinv

/-! The calibrator (R37 items 10 and 11). -/

/-- A CAL_START begins a calibration, in Warmup or at once in Accumulate, or changes nothing (R190). -/
theorem execCalStart_begins_or_refused {warmup n : Word} (h : execCalStart warmup n s = .next t) :
    t = s ∨ (s.cal.calState = .idle ∧ s.seq.gyroFallback = false ∧ s.seq.loopRun = false ∧ n ≠ 0 ∧
      t = { s with cal := { s.cal with
        calRem := warmup
        calN := n
        calCnt := 0
        calSum := #v[0, 0, 0]
        calState := if warmup = 0 then .accumulate else .warmup } }) := by
  unfold execCalStart at h
  split at h <;> cases h
  · exact .inl rfl
  · rename_i haccepted
    simp only [calStartRefused, Bool.or_eq_true, decide_eq_true_eq, not_or, not_not, Bool.not_eq_true] at haccepted
    obtain ⟨⟨⟨hidle, hfall⟩, hrun⟩, hn⟩ := haccepted
    exact .inr ⟨hidle, hfall, hrun, hn, rfl⟩

theorem toNat_pos_of_ne_zero {x : Word} (h : x ≠ 0) : 0 < x.toNat :=
  Nat.pos_of_ne_zero fun hx => h (BitVec.eq_of_toNat_eq hx)

/-- The sum of no samples. -/
theorem sumOfSamples_zero : sumOfSamples 0 0 := by decide

theorem execCalStart_keeps_cal {warmup n : Word} (hinv : s.cal.Inv) (h : execCalStart warmup n s = .next t) :
    t.cal.Inv := by
  obtain rfl | ⟨-, -, -, hn, rfl⟩ := execCalStart_begins_or_refused h
  · exact hinv
  have hcount := toNat_pos_of_ne_zero hn
  refine ⟨fun hphase => ⟨toNat_pos_of_ne_zero fun hzero => ?_, hcount⟩, fun _ => hcount,
    sumOfSamples_zero, sumOfSamples_zero, sumOfSamples_zero⟩
  simp [show warmup = 0 from hzero] at hphase

/-- A calibration that has ended counts nothing any more, so only its sums are left of the invariant. -/
theorem cal_inv_of_ended {c : CalibratorState} (hphase : c.calState = .done ∨ c.calState = .failed)
    (h0 : sumOfSamples c.calSum[0] c.calCnt) (h1 : sumOfSamples c.calSum[1] c.calCnt)
    (h2 : sumOfSamples c.calSum[2] c.calCnt) : c.Inv := by
  refine ⟨fun h => ?_, fun h => ?_, h0, h1, h2⟩ <;> rw [h] at hphase <;> simp at hphase

theorem calFail_keeps_cal (hinv : s.cal.Inv) : s.calFail.cal.Inv := by
  obtain ⟨-, -, h0, h1, h2⟩ := hinv
  exact cal_inv_of_ended (.inr rfl) h0 h1 h2

/-- The warm-up goes on while samples to discard remain. -/
theorem calWarm_keeps_cal (hinv : s.cal.Inv) (hphase : s.cal.calState = .warmup) (h : s.calWarm = some t) :
    t.cal.Inv := by
  obtain ⟨hwarmup, -, h0, h1, h2⟩ := hinv
  obtain ⟨-, hcount⟩ := hwarmup hphase
  simp only [State.calWarm, Option.bind_eq_bind, Option.bind_eq_some_iff, Option.some.injEq] at h
  obtain ⟨rem, -, rfl⟩ := h
  refine ⟨fun hstill => ⟨toNat_pos_of_ne_zero fun hzero => ?_, hcount⟩, fun _ => hcount, h0, h1, h2⟩
  simp [show rem = 0 from hzero] at hstill

/-- A sample counted is in the sums, and the last one ends the calibration. -/
theorem calAdd_keeps_cal {x y z : Half} (hinv : s.cal.Inv) (hphase : s.cal.calState = .accumulate)
    (h : s.calAdd x y z = some t) : t.cal.Inv := by
  obtain ⟨-, haccumulate, h0, h1, h2⟩ := hinv
  have hcount := haccumulate hphase
  obtain ⟨sx, sy, sz, cnt, hone, hx, hy, hz, hadd⟩ := StepProofs.calAdd_eq hcount h0 h1 h2 x y z
  rw [hadd] at h
  split at h
  · simp only [State.calDone, Option.bind_eq_bind, Option.bind_eq_some_iff, Option.some.injEq] at h
    obtain ⟨_, -, _, -, _, -, rfl⟩ := h
    exact cal_inv_of_ended (.inl rfl) hx hy hz
  · rename_i hmore
    cases h
    have hlt : cnt.toNat < s.cal.calN.toNat :=
      lt_of_le_of_ne (by omega) fun heq => hmore (BitVec.eq_of_toNat_eq heq)
    exact ⟨by simp [hphase], fun _ => hlt, hx, hy, hz⟩

theorem execCalSample_keeps_cal {x y z : Half} {err : Bool} (hinv : s.cal.Inv)
    (h : execCalSample x y z err s = .next t) : t.cal.Inv := by
  unfold execCalSample at h
  split at h
  · rename_i hphase
    split at h
    · cases h; exact calFail_keeps_cal hinv
    · exact calWarm_keeps_cal hinv hphase (checked_next h)
  · rename_i hphase
    split at h
    · cases h; exact calFail_keeps_cal hinv
    · exact calAdd_keeps_cal hinv hphase (checked_next h)
  all_goals (cases h; exact hinv)

theorem exec_keeps_cal (hinv : s.cal.Inv) (h : exec i s = .next t) : t.cal.Inv := by
  cases exec_effect h with
  | calStart => exact execCalStart_keeps_cal hinv h
  | calSample => exact execCalSample_keeps_cal hinv h
  | _ => exact hinv

/-! The modes (R37 items 3, 4 and 9, R196). -/

/-- Before any fallback and LOOP_START, and in Manual mode, only the phase Failed is out of place. -/
theorem mode_inv_of_clear (hmode : s.seq.mode = .manual) (hfall : s.seq.gyroFallback = false)
    (hrun : s.seq.loopRun = false) (hphase : s.cal.calState ≠ .failed) : s.InvMode :=
  ⟨by simp [hmode], by simp [hfall], fun h => absurd h hphase, by simp [hrun]⟩

/-- MODE is GyroStabilized only when a calibration is Done (R37 item 3). -/
theorem manual_of_not_done (hinv : s.InvMode) (hphase : s.cal.calState ≠ .done) : s.seq.mode = .manual := by
  obtain ⟨hgyro, -⟩ := hinv
  cases hmode : s.seq.mode with
  | manual => rfl
  | gyroStabilized => exact absurd (hgyro hmode).left hphase

/-- A running calibration has seen no fallback and no LOOP_START. -/
theorem clear_of_calibrating (hinv : s.InvMode) (hr : s.cal.calState = .warmup ∨ s.cal.calState = .accumulate) :
    s.seq.mode = .manual ∧ s.seq.gyroFallback = false ∧ s.seq.loopRun = false := by
  obtain ⟨-, hended, -, hloop⟩ := id hinv
  refine ⟨manual_of_not_done hinv ?_, Bool.eq_false_of_not_eq_true fun hfall => ?_,
    Bool.eq_false_of_not_eq_true fun hrun => not_or.2 (hloop hrun) hr⟩
  · rcases hr with hr | hr <;> simp [hr]
  · have := hended hfall
    rcases hr with hr | hr <;> simp [hr] at this

/-- A calibration begins only before any fallback and LOOP_START (R190). -/
theorem execCalStart_keeps_mode {warmup n : Word} (hinv : s.InvMode) (h : execCalStart warmup n s = .next t) :
    t.InvMode := by
  obtain rfl | ⟨hidle, hfall, hrun, -, rfl⟩ := execCalStart_begins_or_refused h
  · exact hinv
  · have hmanual := manual_of_not_done hinv (by simp [hidle])
    refine mode_inv_of_clear hmanual hfall hrun ?_
    dsimp only
    split <;> simp

/-- The loop does not start during a calibration (R230). -/
theorem execLoopStart_keeps_mode (hinv : s.InvMode) (h : execLoopStart s = .next t) : t.InvMode := by
  obtain ⟨hgyro, hended, hfailed, -⟩ := id hinv
  unfold execLoopStart at h
  split at h <;> cases h
  · exact hinv
  · rename_i hidle
    exact ⟨hgyro, hended, hfailed, fun _ => not_or.1 hidle⟩

/-- A calibration that ends sets MODE or GYRO_FALLBACK with its phase (R191, R193). -/
theorem execCalSample_keeps_mode {x y z : Half} {err : Bool} (hinv : s.InvMode)
    (h : execCalSample x y z err s = .next t) : t.InvMode := by
  obtain rfl | ⟨hr, rfl⟩ | ⟨r, hr, rfl⟩ | ⟨sums, cnt, hr, rfl⟩ | ⟨sums, cnt, b, hr, rfl⟩ := execCalSample_cases h
  · exact hinv
  · exact ⟨by simp, fun _ => .inr rfl, fun _ => rfl, by simp⟩
  · obtain ⟨hmode, hfall, hrun⟩ := clear_of_calibrating hinv (.inl hr)
    refine mode_inv_of_clear hmode hfall hrun ?_
    dsimp only
    split <;> simp [hr]
  · exact hinv
  · obtain ⟨-, hfall, hrun⟩ := clear_of_calibrating hinv (.inr hr)
    exact ⟨fun _ => ⟨rfl, hfall⟩, fun _ => .inl rfl, by simp, by simp⟩

/-- A tick changes MODE only by the fallback of a stabilized loop, whose calibration is Done (R231). -/
theorem tick_keeps_mode {q : ControlSequencer} {p : PidState} (hinv : s.InvMode) (htick : TickLeaves i s q p) :
    State.InvMode { s with seq := q } := by
  obtain ⟨hgyro, hended, hfailed, hloop⟩ := id hinv
  obtain ⟨hmode, hfall⟩ | ⟨hold, hmode, hfall⟩ := htick.mode
  · simpa only [State.InvMode, hmode, hfall, htick.loopRun] using hinv
  · obtain ⟨hdone, -⟩ := hgyro hold
    exact ⟨by simp [hmode], fun _ => .inl hdone, fun _ => hfall, by simp [hdone]⟩

theorem exec_keeps_mode (hinv : s.InvMode) (h : exec i s = .next t) : t.InvMode := by
  cases exec_effect h with
  | calStart => exact execCalStart_keeps_mode hinv h
  | calSample => exact execCalSample_keeps_mode hinv h
  | loopStart => exact execLoopStart_keeps_mode hinv h
  | tick gx gy gz gerr q p md k htick => exact tick_keeps_mode hinv htick
  | _ => exact hinv

/-! The weapon under the latch (R215). -/

/-- A tick leaves the weapon idle under the latch, or is a contract violation and says so in ERR_MAP_DOMAIN (R231, R236). -/
theorem exec_ctrlTick_keeps_weapon {gx gy gz : Half} {gerr : Bool} (hinv : s.InvWeapon)
    (h : exec (.ctrlTick gx gy gz gerr) s = .next t) : t.InvWeapon := by
  obtain ⟨-, rfl⟩ | ⟨-, m, g, l, r, w, e, p, md, k, rfl, -, ⟨rfl, -, hidle⟩ | ⟨rfl, -⟩, -⟩ :=
    execCtrlTick_cases (gx := gx) (gy := gy) h
  · exact hinv
  · exact fun _ hlatch => (hidle hlatch).symm
  · exact fun hclear => by simp at hclear

/-- The latch comes with an idle weapon (R211), and ERR_MAP_DOMAIN is never cleared but by a reset. -/
theorem exec_keeps_weapon (hinv : s.InvWeapon) (h : exec i s = .next t) : t.InvWeapon := by
  cases exec_effect h with
  | tick => exact exec_ctrlTick_keeps_weapon hinv h
  | failsafe now fault stale cut hcut =>
    cases cut
    · exact hinv
    · exact fun _ _ => ⟨rfl, rfl⟩
  | mapViolation => exact fun hclear => by simp at hclear
  | _ => exact hinv

end Sys2Proof.InvariantProofs
end

section
/-! Every command, every frame and every event keeps the invariant (R37). -/

namespace Sys2Proof.InvariantProofs

open Sys2Proof.Machine Sys2Proof.Laws

section

variable {s t : State}

theorem exec_keeps_inv {i : Instr} (hinv : s.Inv) (h : exec i s = .next t) : t.Inv := by
  obtain ⟨hdec, hmode, hpid, hcal, hweapon⟩ := hinv
  exact ⟨exec_keeps_dec hdec h, exec_keeps_mode hmode h, exec_keeps_pid hpid h, exec_keeps_cal hcal h,
    exec_keeps_weapon hweapon h⟩

/-- An illegal frame sets an error bit that the invariant does not read (R86). -/
theorem runFrame_keeps_inv {f : Frame} (hinv : s.Inv) (h : runFrame f s = .next t) : t.Inv := by
  cases hdecode : decode f with
  | ok i =>
    rw [StepProofs.runFrame_decoded hdecode] at h
    exact exec_keeps_inv hinv h
  | error e =>
    rw [StepProofs.runFrame_illegal hdecode] at h
    cases h
    exact hinv

theorem agentStep_keeps_inv {a : Agent} (hinv : s.Inv) (h : agentStep a s = .next t) : t.Inv := by
  unfold agentStep at h
  split at h
  · cases h; exact hinv
  · rename_i f rest _
    exact runFrame_keeps_inv (s := s.setStream a rest) hinv h

theorem arriveStep_keeps_inv {who : List Agent} {rest : List Event} (hinv : s.Inv)
    (h : arriveStep who rest s = .next t) : t.Inv := by
  unfold arriveStep at h
  split at h
  · cases h; exact hinv
  · split at h
    · cases h; exact hinv
    · rename_i a others _
      exact agentStep_keeps_inv (s := s.setSchedule (waiting others rest)) hinv h

theorem reset_inv : State.reset.Inv := by decide

/-- An asserted rst leads to the reset values, a released one changes no element (R310, R311). -/
theorem driveRst_keeps_inv (hinv : s.Inv) (level : Bool) : (s.driveRst level).Inv := by
  cases level with
  | false => exact hinv
  | true => exact reset_inv

end

/-- Settles O14, event by event: the environment and the response port are not in the invariant. -/
theorem everyStepKeepsTheInvariant : Obligations.EveryStepKeepsTheInvariant := by
  intro s t hinv h
  unfold step eventStep at h
  split at h
  · cases h; exact hinv
  · exact arriveStep_keeps_inv hinv h
  · rename_i level rest _
    cases h; exact driveRst_keeps_inv (s := s.setSchedule rest) hinv level
  · cases h; exact hinv

end Sys2Proof.InvariantProofs
end

section
/-! SUPPORT. CAL_START and CAL_SAMPLE as equations, one per branch of R190 and R191, for states that meet the calibrator's
invariant. -/

namespace Sys2Proof.CalibratorProofs

open Sys2Proof.Machine Sys2Proof.Laws

section

variable {s : State} {w n : Word} {x y z : Half} {err : Bool}

/-! CAL_START. -/

theorem calStartRefused_eq_false_iff : calStartRefused n s = false ↔
    s.cal.calState = .idle ∧ s.seq.gyroFallback = false ∧ s.seq.loopRun = false ∧ n ≠ 0 := by
  simp [calStartRefused, and_assoc]

theorem exec_calStart_accepted (haccepted : calStartRefused n s = false) :
    exec (.calStart w n) s = .next { s with cal := { s.cal with
      calRem := w, calN := n, calCnt := 0, calSum := #v[0, 0, 0]
      calState := if w = 0 then .accumulate else .warmup } } :=
  if_neg (by rw [haccepted]; exact Bool.false_ne_true)

theorem exec_calStart_refused (hrefused : calStartRefused n s = true) : exec (.calStart w n) s = .next s :=
  if_pos hrefused

/-! CAL_SAMPLE. -/

theorem exec_calSample_stopped (hwarmup : s.cal.calState ≠ .warmup) (haccumulate : s.cal.calState ≠ .accumulate) :
    exec (.calSample x y z err) s = .next s := by
  cases hphase : s.cal.calState with
  | warmup => exact absurd hphase hwarmup
  | accumulate => exact absurd hphase haccumulate
  | idle | done | failed => simp [exec, execCalSample, hphase]

theorem exec_calSample_error (hrunning : s.cal.calState = .warmup ∨ s.cal.calState = .accumulate) :
    exec (.calSample x y z true) s = .next s.calFail := by
  rcases hrunning with h | h <;> simp [exec, execCalSample, h]

/-- A value that is a word's own is stored as that word. -/
theorem fitU32_of_toNat {v : Word} {a : Int} (h : (v.toNat : Int) = a) : fitU 32 a = some v := by
  subst h
  have hlt := v.isLt
  rw [fitU32_eq (by omega) (by omega), pattern, BitVec.ofInt_natCast, BitVec.ofNat_toNat, BitVec.setWidth_eq]

/-- CAL_REM counts down; its last sample leads to Accumulate. -/
theorem exec_calSample_warmup (hrem : 1 ≤ s.cal.calRem.toNat) (hphase : s.cal.calState = .warmup) :
    exec (.calSample x y z false) s = .next { s with cal := { s.cal with
      calRem := s.cal.calRem - 1, calState := if s.cal.calRem = 1 then .accumulate else .warmup } } := by
  have hdown : (s.cal.calRem - 1).toNat = s.cal.calRem.toNat - 1 := by bv_omega
  have hfit : fitU 32 (uval s.cal.calRem - 1) = some (s.cal.calRem - 1) :=
    fitU32_of_toNat (by rw [hdown, uval]; omega)
  have hlast : s.cal.calRem - 1 = 0 ↔ s.cal.calRem = 1 := sub_eq_zero
  simp only [exec, execCalSample, hphase, State.calWarm, hfit, hlast, checked, Option.bind_eq_bind, Option.bind_some,
    Bool.false_eq_true, if_false]

/-- One more sample counted, with the sums that it leads to (R191). -/
abbrev counted (s : State) (sx sy sz : Dword) : State :=
  { s with cal := { s.cal with calSum := #v[sx, sy, sz], calCnt := s.cal.calCnt + 1 } }

/-- The sample goes into the three sums and into CAL_CNT, exactly (R192). -/
theorem calAdd_eq_counted (hcnt : s.cal.calCnt.toNat < s.cal.calN.toNat)
    (h0 : sumOfSamples s.cal.calSum[0] s.cal.calCnt) (h1 : sumOfSamples s.cal.calSum[1] s.cal.calCnt)
    (h2 : sumOfSamples s.cal.calSum[2] s.cal.calCnt) (x y z : Half) :
    ∃ sx sy sz : Dword, sx.toInt = s.cal.calSum[0].toInt + x.toInt ∧ sy.toInt = s.cal.calSum[1].toInt + y.toInt ∧
      sz.toInt = s.cal.calSum[2].toInt + z.toInt ∧ sumOfSamples sx (s.cal.calCnt + 1) ∧
      sumOfSamples sy (s.cal.calCnt + 1) ∧ sumOfSamples sz (s.cal.calCnt + 1) ∧
      s.calAdd x y z =
        if s.cal.calCnt + 1 = s.cal.calN then (counted s sx sy sz).calDone else some (counted s sx sy sz) := by
  have hup : (s.cal.calCnt + 1).toNat = s.cal.calCnt.toNat + 1 := by bv_omega
  have hfit : fitU 32 (uval s.cal.calCnt + 1) = some (s.cal.calCnt + 1) := fitU32_of_toNat (by rw [hup]; rfl)
  obtain ⟨sx, hsx, hx⟩ := StepProofs.sumOfSamples_add h0 hup x
  obtain ⟨sy, hsy, hy⟩ := StepProofs.sumOfSamples_add h1 hup y
  obtain ⟨sz, hsz, hz⟩ := StepProofs.sumOfSamples_add h2 hup z
  refine ⟨sx, sy, sz, fitS64_some hsx, fitS64_some hsy, fitS64_some hsz, hx, hy, hz, ?_⟩
  simp only [State.calAdd, hsx, hsy, hsz, hfit, Option.bind_eq_bind, Option.bind_some]

theorem exec_calSample_accumulate (hphase : s.cal.calState = .accumulate) :
    exec (.calSample x y z false) s = checked (s.calAdd x y z) := by
  simp [exec, execCalSample, hphase]

end

/-- Settles O33. -/
theorem calStartBeginsOrIsRefused : Obligations.CalStartBeginsOrIsRefused := by
  refine fun s w n => ⟨EncodingProofs.decode_of_assemble .calStart 0 rfl (.inl rfl) rfl, ?_⟩
  split
  · rename_i haccepted
    exact exec_calStart_accepted (calStartRefused_eq_false_iff.2 haccepted)
  · rename_i hrefused
    exact exec_calStart_refused (Bool.eq_true_of_not_eq_false (mt calStartRefused_eq_false_iff.1 hrefused))

/-- Settles O34. -/
theorem calSampleFollowsTheStateMachine : Obligations.CalSampleFollowsTheStateMachine := by
  refine ⟨fun a b c d => EncodingProofs.decode_of_assemble .calSample 0 rfl (.inl rfl) rfl,
    fun s x y z err ⟨hwarmup, haccumulate, h0, h1, h2⟩ => ⟨exec_calSample_stopped, ?error, ?warmup, ?accumulate⟩⟩
  case error =>
    rintro hrunning rfl
    exact exec_calSample_error hrunning
  case warmup =>
    rintro hphase rfl
    exact exec_calSample_warmup (hwarmup hphase).left hphase
  case accumulate =>
    rintro hphase rfl
    obtain ⟨sx, sy, sz, hsx, hsy, hsz, hx, hy, hz, hadd⟩ := calAdd_eq_counted (haccumulate hphase) h0 h1 h2 x y z
    rw [exec_calSample_accumulate hphase, hadd]
    refine ⟨sx, sy, sz, hsx, hsy, hsz, fun hmore => ?more, fun hlast => ?last⟩
    case more => rw [if_neg hmore]; rfl
    case last =>
      rw [hlast] at hx hy hz
      obtain ⟨bx, b, bz, hbx, hby, hbz, hdone⟩ :=
        calDone_eq (s := counted s sx sy sz) (Nat.zero_lt_of_lt (haccumulate hphase)) hx hy hz
      exact ⟨bx, b, bz, hbx, hby, hbz, by rw [if_pos hlast, hdone]; rfl⟩

end Sys2Proof.CalibratorProofs
end

section
/-! SUPPORT. A calibration sample by sample (R195): what the calibrator holds while it runs, and the sample that ends it. -/

namespace Sys2Proof.CalibratorProofs

open Sys2Proof.Machine Sys2Proof.Laws

/-- One reading of the three axes. -/
abbrev Reading := Half × Half × Half

/-! The sum of one axis over the readings after the warm-up. -/

/-- The readings after the first w, summed on one axis. -/
def axisSum (axis : Reading → Half) (w : Nat) (rs : List Reading) : Int :=
  ((rs.drop w).map (fun r => (axis r).toInt)).sum

section

variable {axis : Reading → Half} {w : Nat} {rs : List Reading}

theorem axisSum_warmup (h : rs.length ≤ w) : axisSum axis w rs = 0 := by
  rw [axisSum, List.drop_eq_nil_of_le h]; rfl

theorem axisSum_concat_warmup (h : rs.length < w) (r : Reading) : axisSum axis w (rs ++ [r]) = axisSum axis w rs := by
  rw [axisSum_warmup h.le, axisSum_warmup (by simpa using h)]

theorem axisSum_concat (h : w ≤ rs.length) (r : Reading) :
    axisSum axis w (rs ++ [r]) = axisSum axis w rs + (axis r).toInt := by
  simp [axisSum, List.drop_append_of_le_length h]

theorem sum_range (axis : Reading → Half) (l : List Reading) :
    -(32768 * (l.length : Int)) ≤ (l.map (fun r => (axis r).toInt)).sum ∧
      (l.map (fun r => (axis r).toInt)).sum ≤ 32767 * (l.length : Int) := by
  induction l with
  | nil => simp
  | cons r l ih =>
    have := toInt16_range (axis r)
    simp only [List.map_cons, List.sum_cons, List.length_cons]
    omega

/-- What the sums hold is a sum of CAL_CNT samples. -/
theorem sumOfSamples_axisSum {sum : Dword} {cnt : Word} (hsum : sum.toInt = axisSum axis w rs)
    (hcnt : cnt.toNat = rs.length - w) : sumOfSamples sum cnt := by
  rw [sumOfSamples, hsum, hcnt, ← List.length_drop]
  exact sum_range axis _

end

/-! The calibration while it runs. -/

/-- After CAL_START w, n and the readings rs, fewer than w + n: the phase, the counts and the sums that rs leads to. -/
structure Running (w n : Word) (rs : List Reading) (t : State) : Prop where
  counts : 0 < n.toNat
  unfinished : rs.length < w.toNat + n.toNat
  phase : t.cal.calState = if rs.length < w.toNat then .warmup else .accumulate
  calRem : t.cal.calRem.toNat = w.toNat - rs.length
  calN : t.cal.calN = n
  calCnt : t.cal.calCnt.toNat = rs.length - w.toNat
  sumX : t.cal.calSum[0].toInt = axisSum (fun r => r.1) w.toNat rs
  sumY : t.cal.calSum[1].toInt = axisSum (fun r => r.2.1) w.toNat rs
  sumZ : t.cal.calSum[2].toInt = axisSum (fun r => r.2.2) w.toNat rs

section

variable {s t : State} {w n : Word} {rs : List Reading}

theorem running_start (hn : n ≠ 0) (ht : exec (.calStart w n) s = .next t) (haccepted : calStartRefused n s = false) :
    Running w n [] t := by
  have hpos := InvariantProofs.toNat_pos_of_ne_zero hn
  cases (exec_calStart_accepted haccepted).symm.trans ht
  refine ⟨hpos, by simp only [List.length_nil]; omega, ?_, rfl, rfl, (Nat.zero_sub _).symm, ?_, ?_, ?_⟩
  · have hwarm : w = 0 ↔ ¬ 0 < w.toNat := by bv_omega
    simp only [List.length_nil, hwarm, ite_not]
  all_goals rw [axisSum_warmup (Nat.zero_le _)]; rfl

theorem Running.warmup_or_accumulate (h : Running w n rs t) :
    t.cal.calState = .warmup ∨ t.cal.calState = .accumulate := by
  rw [h.phase]
  split
  · exact .inl rfl
  · exact .inr rfl

theorem Running.phase_warmup (h : Running w n rs t) (hlt : rs.length < w.toNat) : t.cal.calState = .warmup :=
  h.phase.trans (if_pos hlt)

theorem Running.phase_accumulate (h : Running w n rs t) (hle : w.toNat ≤ rs.length) : t.cal.calState = .accumulate :=
  h.phase.trans (if_neg hle.not_gt)

theorem Running.inv (h : Running w n rs t) : t.cal.Inv := by
  obtain ⟨hpos, hlt, hphase, hrem, rfl, hcnt, hx, hy, hz⟩ := h
  refine ⟨fun hwarm => ?_, fun _ => by omega, sumOfSamples_axisSum hx hcnt, sumOfSamples_axisSum hy hcnt,
    sumOfSamples_axisSum hz hcnt⟩
  rw [hwarm] at hphase
  split at hphase
  · omega
  · cases hphase

/-- The sample that CAL_N asks for last is the reading that rs lacks. -/
theorem Running.counts_last_iff (h : Running w n rs t) (hle : w.toNat ≤ rs.length) :
    t.cal.calCnt + 1 = t.cal.calN ↔ rs.length + 1 = w.toNat + n.toNat := by
  have hlt := h.unfinished
  have hcnt := h.calCnt
  rw [h.calN]
  bv_omega

/-- A reading during the warm-up is discarded. -/
theorem Running.reading_warmup (h : Running w n rs t) (hlt : rs.length < w.toNat) (r : Reading) :
    ∃ u, exec (Rule.reading r) t = .next u ∧ Running w n (rs ++ [r]) u := by
  have hphase := h.phase_warmup hlt
  obtain ⟨hpos, -, -, hrem, hn, hcnt, hx, hy, hz⟩ := h
  have hlen : (rs ++ [r]).length = rs.length + 1 := List.length_append
  have hlast : t.cal.calRem = 1 ↔ ¬ rs.length + 1 < w.toNat := by bv_omega
  refine ⟨_, exec_calSample_warmup (by omega) hphase, hpos, by omega, ?_, ?_, hn, ?_, ?_, ?_, ?_⟩
  · simp only [hlen, hlast, ite_not]
  · rw [hlen]; bv_omega
  · rw [hlen]; exact hcnt.trans (by omega)
  · rw [axisSum_concat_warmup hlt]; exact hx
  · rw [axisSum_concat_warmup hlt]; exact hy
  · rw [axisSum_concat_warmup hlt]; exact hz

/-- A reading after the warm-up is added and counted. -/
theorem Running.reading_accumulate (h : Running w n rs t) (hle : w.toNat ≤ rs.length)
    (hmore : rs.length + 1 < w.toNat + n.toNat) (r : Reading) :
    ∃ u, exec (Rule.reading r) t = .next u ∧ Running w n (rs ++ [r]) u := by
  have hphase := h.phase_accumulate hle
  obtain ⟨-, hsample⟩ := calSampleFollowsTheStateMachine
  obtain ⟨-, -, -, haccumulate⟩ := hsample t r.1 r.2.1 r.2.2 false h.inv
  obtain ⟨sx, sy, sz, hsx, hsy, hsz, hnext, -⟩ := haccumulate hphase rfl
  have hcounting : t.cal.calCnt + 1 ≠ t.cal.calN := mt (h.counts_last_iff hle).1 hmore.ne
  obtain ⟨hpos, -, -, hrem, rfl, hcnt, hx, hy, hz⟩ := h
  have hlen : (rs ++ [r]).length = rs.length + 1 := List.length_append
  refine ⟨_, hnext hcounting, hpos, by omega, ?_, ?_, rfl, ?_, ?_, ?_, ?_⟩
  · rw [if_neg (by omega)]; exact hphase
  · rw [hlen]; exact hrem.trans (by omega)
  · rw [hlen]; bv_omega
  · rw [axisSum_concat hle, ← hx]; exact hsx
  · rw [axisSum_concat hle, ← hy]; exact hsy
  · rw [axisSum_concat hle, ← hz]; exact hsz

theorem Running.reading (h : Running w n rs t) (hmore : rs.length + 1 < w.toNat + n.toNat) (r : Reading) :
    ∃ u, exec (Rule.reading r) t = .next u ∧ Running w n (rs ++ [r]) u := by
  rcases Nat.lt_or_ge rs.length w.toNat with hlt | hle
  · exact h.reading_warmup hlt r
  · exact h.reading_accumulate hle hmore r

theorem Running.readings (h : Running w n rs t) {qs : List Reading} (hmore : rs.length + qs.length < w.toNat + n.toNat) :
    ∃ u, execAll (qs.map Rule.reading) t = .next u ∧ Running w n (rs ++ qs) u := by
  induction qs generalizing rs t with
  | nil => exact ⟨t, rfl, (List.append_nil rs).symm ▸ h⟩
  | cons q qs ih =>
    rw [List.length_cons] at hmore
    obtain ⟨u, hu, hrun⟩ := h.reading (by omega) q
    obtain ⟨v, hv, hend⟩ := ih hrun (by rw [List.length_append, List.length_singleton]; omega)
    exact ⟨v, (EncodingProofs.execAll_cons hu).trans hv, by simpa using hend⟩

/-- The reading that completes the count ends the calibration with the truncated means (R193). -/
theorem Running.last_reading (h : Running w n rs t) (hlast : rs.length + 1 = w.toNat + n.toNat) (r : Reading) :
    ∃ u, exec (Rule.reading r) t = .next u ∧ u.cal.calState = .done ∧ u.seq.mode = .gyroStabilized ∧
      u.cal.bias[0].toInt = (axisSum (fun r => r.1) w.toNat (rs ++ [r])).tdiv n.toNat ∧
      u.cal.bias[1].toInt = (axisSum (fun r => r.2.1) w.toNat (rs ++ [r])).tdiv n.toNat ∧
      u.cal.bias[2].toInt = (axisSum (fun r => r.2.2) w.toNat (rs ++ [r])).tdiv n.toNat := by
  have hle : w.toNat ≤ rs.length := by have := h.counts; omega
  obtain ⟨-, hsample⟩ := calSampleFollowsTheStateMachine
  obtain ⟨-, -, -, haccumulate⟩ := hsample t r.1 r.2.1 r.2.2 false h.inv
  obtain ⟨sx, sy, sz, hsx, hsy, hsz, -, hdone⟩ := haccumulate (h.phase_accumulate hle) rfl
  obtain ⟨bx, b, bz, hbx, hby, hbz, hnext⟩ := hdone ((h.counts_last_iff hle).2 hlast)
  rw [h.calN] at hbx hby hbz
  simp only [axisSum_concat hle, ← h.sumX, ← h.sumY, ← h.sumZ, ← hsx, ← hsy, ← hsz]
  exact ⟨_, hnext, rfl, rfl, hbx, hby, hbz⟩

end

theorem execAll_append {is js : List Instr} {s t : State} (h : execAll is s = .next t) :
    execAll (is ++ js) s = execAll js t := by
  induction is generalizing s with
  | nil => cases h; rfl
  | cons i is ih =>
    rw [execAll] at h
    split at h
    · rename_i u hu
      exact (EncodingProofs.execAll_cons hu).trans (ih h)
    · cases h
    · cases h

/-- Settles O35: the readings before the last keep the calibration running, and the last one or an error ends it. -/
theorem calibrationEndsAtTheCountedSample : Obligations.CalibrationEndsAtTheCountedSample := by
  intro s w n rs hidle hfall hrun hn hlen
  have haccepted : calStartRefused n s = false := calStartRefused_eq_false_iff.2 ⟨hidle, hfall, hrun, hn⟩
  have hstart := exec_calStart_accepted (w := w) haccepted
  have hbegun := running_start hn hstart haccepted
  refine ⟨?done, fun k hk => ?failed⟩
  case done =>
    obtain rfl | ⟨qs, r, rfl⟩ := rs.eq_nil_or_concat'
    · have := hbegun.unfinished; omega
    · rw [List.length_append, List.length_singleton] at hlen
      obtain ⟨t, ht, hrunning⟩ := hbegun.readings (qs := qs) (by rw [List.length_nil]; omega)
      obtain ⟨u, hu, hends⟩ := hrunning.last_reading (by rw [List.nil_append]; omega) r
      refine ⟨u, ?_, hends⟩
      rw [EncodingProofs.execAll_cons hstart, List.map_append, execAll_append ht]
      exact EncodingProofs.execAll_cons hu
  case failed =>
    obtain ⟨t, ht, hrunning⟩ := hbegun.readings (qs := rs.take k) (by rw [List.length_nil, List.length_take]; omega)
    exact ⟨t, (EncodingProofs.execAll_cons hstart).trans ht, hrunning.warmup_or_accumulate, fun x y z =>
      ⟨_, exec_calSample_error hrunning.warmup_or_accumulate, rfl, rfl, rfl⟩⟩

end Sys2Proof.CalibratorProofs
end

section
/-! SUPPORT. The one path of a calibration (R194): what any command can do to the phase, to BIAS and to MODE. -/

namespace Sys2Proof.CalibratorProofs

open Sys2Proof.Machine Sys2Proof.Laws Sys2Proof.StateProofs

/-- The moves along Idle, Warmup, Accumulate, Done or Failed (R190, R191, R194). -/
def phaseMoves : List (CalPhase × CalPhase) :=
  [(.idle, .warmup), (.idle, .accumulate), (.warmup, .accumulate), (.warmup, .failed), (.accumulate, .done),
    (.accumulate, .failed)]

/-- The end of the path that writes BIAS and stabilizes the loop (R193). -/
def completes (s t : State) : Prop := s.cal.calState = .accumulate ∧ t.cal.calState = .done

/-- A command moves the calibrator by at most one phase, and writes BIAS and MODE only when it completes. -/
structure Follows (s t : State) : Prop where
  phase : t.cal.calState = s.cal.calState ∨ (s.cal.calState, t.cal.calState) ∈ phaseMoves
  bias : t.cal.bias ≠ s.cal.bias → completes s t
  mode : t.seq.mode = .gyroStabilized → s.seq.mode = .gyroStabilized ∨ completes s t

section

variable {i : Instr} {s t : State}

theorem follows_self (s : State) : Follows s s := ⟨.inl rfl, absurd rfl, .inl⟩

theorem execCalStart_follows {w n : Word} (h : execCalStart w n s = .next t) : Follows s t := by
  obtain rfl | ⟨hidle, -, -, -, rfl⟩ := InvariantProofs.execCalStart_begins_or_refused h
  · exact follows_self t
  · refine ⟨.inr ?_, absurd rfl, .inl⟩
    dsimp only
    split <;> simp [hidle, phaseMoves]

theorem execCalSample_follows {x y z : Half} {err : Bool} (h : execCalSample x y z err s = .next t) : Follows s t := by
  obtain rfl | ⟨hr, rfl⟩ | ⟨r, hr, rfl⟩ | ⟨sums, cnt, hr, rfl⟩ | ⟨sums, cnt, b, hr, rfl⟩ := execCalSample_cases h
  case inl => exact follows_self t
  case inr.inl =>
    refine ⟨.inr ?_, absurd rfl, by simp⟩
    rcases hr with hr | hr <;> simp [hr, phaseMoves]
  case inr.inr.inl =>
    refine ⟨?_, absurd rfl, .inl⟩
    dsimp only
    split <;> simp [hr, phaseMoves]
  case inr.inr.inr.inl => exact ⟨.inl rfl, absurd rfl, .inl⟩
  case inr.inr.inr.inr => exact ⟨.inr (by simp [hr, phaseMoves]), fun _ => ⟨hr, rfl⟩, fun _ => .inr ⟨hr, rfl⟩⟩

/-- No other command touches the calibrator, and a tick leaves MODE or falls back to Manual. -/
theorem exec_follows (h : exec i s = .next t) : Follows s t := by
  cases exec_effect h with
  | calStart => exact execCalStart_follows h
  | calSample => exact execCalSample_follows h
  | tick gx gy gz gerr q p md k htick =>
    refine ⟨.inl rfl, absurd rfl, fun hmode => ?_⟩
    obtain ⟨hkept, -⟩ | ⟨hold, -⟩ := htick.mode
    · exact .inl (hkept.symm.trans hmode)
    · exact .inl hold
  | _ => exact ⟨.inl rfl, absurd rfl, .inl⟩

end

/-- Settles O36. -/
theorem calibratorRunsOncePerSession : Obligations.CalibratorRunsOncePerSession := by
  intro i s t h
  obtain ⟨hphase, hbias, hmode⟩ := exec_follows h
  exact ⟨hphase, hbias, hmode⟩

end Sys2Proof.CalibratorProofs
end

section
/-! SUPPORT. The gyro fallback (R191, R196, R231, R238): what one step of the machine can do, how a session falls back, and
that every command keeps a session that has fallen back. -/

namespace Sys2Proof.CalibratorProofs

open Sys2Proof.Machine Sys2Proof.Laws Sys2Proof.StateProofs

section

variable {s t : State}

/-! One step: the frame it runs, if it runs one (R71, R310). -/

theorem agentStep_cases {a : Agent} (h : agentStep a s = .next t) :
    t = s ∨ ∃ f env, runFrame f { s with env := env } = .next t := by
  unfold agentStep at h
  split at h
  · cases h; exact .inl rfl
  · exact .inr ⟨_, _, h⟩

theorem arriveStep_cases {who : List Agent} {rest : List Event} (h : arriveStep who rest s = .next t) :
    (∃ env, t = { s with env := env }) ∨ ∃ f env, runFrame f { s with env := env } = .next t := by
  unfold arriveStep at h
  split at h
  · cases h; exact .inl ⟨_, rfl⟩
  · split at h
    · cases h; exact .inl ⟨_, rfl⟩
    · obtain rfl | ⟨f, env, hrun⟩ := agentStep_cases h
      · exact .inl ⟨_, rfl⟩
      · exact .inr ⟨f, env, hrun⟩

/-- A step changes no element of the block, or discards an illegal frame, or executes one command, or is an asserted rst. -/
theorem step_cases (h : step s = .next t) :
    (∃ env resp, t = { s with env := env, resp := resp }) ∨
    (∃ env, t = State.raise { s with env := env } .illegalOp) ∨
    (∃ i env, exec i { s with env := env } = .next t) ∨
    (∃ rest, s.env.schedule = .rst true :: rest ∧ t = (s.setSchedule rest).driveRst true) := by
  unfold step eventStep at h
  split at h
  · cases h; exact .inl ⟨_, _, rfl⟩
  · obtain ⟨env, rfl⟩ | ⟨f, env, hrun⟩ := arriveStep_cases h
    · exact .inl ⟨env, _, rfl⟩
    · cases hdecode : decode f with
      | ok i => exact .inr (.inr (.inl ⟨i, env, StepProofs.runFrame_decoded hdecode _ ▸ hrun⟩))
      | error e =>
        rw [StepProofs.runFrame_illegal hdecode] at hrun
        cases hrun
        exact .inr (.inl ⟨env, rfl⟩)
  · rename_i level rest hschedule
    cases h
    cases level
    · exact .inl ⟨_, _, rfl⟩
    · exact .inr (.inr (.inr ⟨rest, hschedule, rfl⟩))
  · cases h; exact .inl ⟨_, _, rfl⟩

/-! The two ways into the fallback (R191, R231). -/

/-- The mixing of a tick changes neither the mode nor the calibrator, also where it violates its contract. -/
theorem mix_frame (s : State) (gz : Half) :
    (s.mix gz).seq.mode = s.seq.mode ∧ (s.mix gz).seq.gyroFallback = s.seq.gyroFallback ∧ (s.mix gz).cal = s.cal := by
  unfold State.mix
  split
  · split <;> exact ⟨rfl, rfl, rfl⟩
  · exact ⟨rfl, rfl, rfl⟩

/-- A gyro error on a valid stabilized tick falls back under either policy. -/
theorem validTick_error_falls (hmode : s.seq.mode = .gyroStabilized) (gz : Half) :
    (s.validTick gz true).seq.mode = .manual ∧ (s.validTick gz true).seq.gyroFallback = true ∧
      (s.validTick gz true).cal = s.cal := by
  have herror : s.gyroError true = true := by simp [State.gyroError, hmode]
  rw [State.validTick, if_pos herror]
  split
  · exact ⟨rfl, rfl, rfl⟩
  · exact mix_frame s.gyroFall gz

/-! No command leads out of it. -/

/-- A fallen-back session has ended its calibration and is in Manual mode: CAL_START is refused, CAL_SAMPLE is ignored,
and a tick finds no stabilized mode to fall back from. -/
theorem exec_keeps_fallenBack {i : Instr} (hfallen : Rule.fallenBack s) (h : exec i s = .next t) :
    Rule.fallenBack t := by
  obtain ⟨hmanual, hfall, hended⟩ := id hfallen
  cases exec_effect h with
  | calStart warmup n c haccepted => simp [calStartRefused, hfall] at haccepted
  | calSample x y z err c m g hrunning => rcases hended with hend | hend <;> simp [hend] at hrunning
  | tick gx gy gz gerr q p md k htick =>
    obtain ⟨hmode, hkept⟩ | ⟨hstabilized, -⟩ := htick.mode
    · exact ⟨hmode.trans hmanual, hkept.trans hfall, hended⟩
    · rw [hmanual] at hstabilized; cases hstabilized
  | _ => exact hfallen

end

/-- Settles O46: by the cases of a step, and the two ways in. -/
theorem everyStepKeepsTheFallback : Obligations.EveryStepKeepsTheFallback := by
  refine ⟨?kept, ?byTick, ?byCalibration⟩
  case kept =>
    intro s t hrst hfallen h
    obtain ⟨_, _, rfl⟩ | ⟨_, rfl⟩ | ⟨i, env, hexec⟩ | ⟨rest, hschedule, -⟩ := step_cases h
    · exact hfallen
    · exact hfallen
    · exact exec_keeps_fallenBack (s := { s with env := env }) hfallen hexec
    · exact absurd hschedule (hrst rest)
  case byTick =>
    intro s t gx gy gz hdone hrun hvalid hmode h
    cases (execCtrlTick_valid gx gy gz true hrun hvalid).symm.trans h
    obtain ⟨hmanual, hfall, hcal⟩ := validTick_error_falls (s := s.toggleLoop) hmode gz
    exact ⟨hmanual, hfall, .inl ((congrArg _ hcal).trans hdone)⟩
  case byCalibration =>
    intro s t x y z hrunning h
    cases (exec_calSample_error hrunning).symm.trans h
    exact ⟨rfl, rfl, .inr rfl⟩

end Sys2Proof.CalibratorProofs
end

section
/-! The FailsafeSupervisor (R211, R212): FS_TICK, and what it does a given time after the last commit. -/

namespace Sys2Proof.FailsafeProofs

open Sys2Proof.Machine Sys2Proof.Laws

section

variable (s : State)

theorem elapsed_toNat (now : Word) :
    (s.elapsed now).toNat = (now.toNat + 2 ^ 32 - s.chan.tCommit.toNat) % 2 ^ 32 := by
  have hlt := s.chan.tCommit.isLt
  rw [State.elapsed, BitVec.toNat_sub]
  congr 1
  omega

/-- The wrap of `now` does not show in `elapsed`. -/
@[simp] theorem elapsed_tCommit_add (d : Word) : s.elapsed (s.chan.tCommit + d) = d :=
  add_sub_cancel_left s.chan.tCommit d

/-- The two duties of FS_TICK, each with its test (R211). -/
theorem exec_fsTick {now : Word} {fault stale cut : Bool}
    (hstale : stale = true ↔ s.inp.timeout.toNat < (s.elapsed now).toNat)
    (hcut : cut = true ↔ fault = true ∧ s.inp.faultPolicy = .cutWeapon) :
    exec (.fsTick now fault) s = .next { s with
      chan := { s.chan with valid := if stale then false else s.chan.valid }
      ind := { s.ind with losInd := if stale then true else s.ind.losInd }
      fs := { faultIn := fault, faultLatch := if cut then true else s.fs.faultLatch }
      seq := { s.seq with weaponWidth := if cut then 0 else s.seq.weaponWidth
                          weaponEn := if cut then false else s.seq.weaponEn } } := by
  obtain ⟨stale', cut', hstale', hcut', hleaves⟩ := execFsTick_cases (s := s) (now := now) (fault := fault) rfl
  obtain rfl : stale' = stale := Bool.eq_iff_iff.2 (hstale'.trans (Int.ofNat_lt.trans hstale.symm))
  obtain rfl : cut' = cut := Bool.eq_iff_iff.2 (hcut'.trans hcut.symm)
  exact congrArg _ hleaves

/-- At the time d after the last commit, only d and TIMEOUT decide what becomes of VALID and LOS_IND. -/
theorem exec_fsTick_after_commit (d : Word) (fault : Bool) :
    ∃ t, exec (.fsTick (s.chan.tCommit + d) fault) s = .next t ∧
      t.chan.valid = (if s.inp.timeout.toNat < d.toNat then false else s.chan.valid) ∧
      t.ind.losInd = (if s.inp.timeout.toNat < d.toNat then true else s.ind.losInd) := by
  refine ⟨_, exec_fsTick s (stale := decide (s.inp.timeout.toNat < d.toNat)) ?_ decide_eq_true_iff, ?_, ?_⟩
  · rw [elapsed_tCommit_add, decide_eq_true_iff]
  all_goals simp only [decide_eq_true_eq]

end

/-- Settles O37: the staleness test is on `elapsed`, which subtracts modulo 2^32. -/
theorem fsTickChecksStalenessAndFault : Obligations.FsTickChecksStalenessAndFault :=
  ⟨fun _ _ => EncodingProofs.decode_of_assemble .fsTick 0 rfl (.inl rfl) rfl,
    fun s now _ _ _ hstale hcut => exec_fsTick s (elapsed_toNat s now ▸ hstale) hcut⟩

/-- Settles O38: 499000 does not exceed a TIMEOUT of 500000, and 501000 does. -/
theorem failsafeTimesOutAcrossTheWrap : Obligations.FailsafeTimesOutAcrossTheWrap := by
  intro s f htimeout
  refine ⟨?late, ?early⟩
  case late =>
    have hstale : s.inp.timeout.toNat < (501000 : Word).toNat := by rw [htimeout]; decide
    simpa only [if_pos hstale] using exec_fsTick_after_commit s 501000 f
  case early =>
    have hfresh : ¬ s.inp.timeout.toNat < (499000 : Word).toNat := by rw [htimeout]; decide
    simpa only [if_neg hfresh] using exec_fsTick_after_commit s 499000 f

end Sys2Proof.FailsafeProofs
end

section
/-! SUPPORT. The values of a tick against the formulas of R100 and R232: the mapped channels, the shaped drives, and
that each output is stored without loss. -/

namespace Sys2Proof.ControlLoopProofs

open Sys2Proof.Machine Sys2Proof.Laws

section Values

variable {s : State}

/-! The maps (R231, R233). -/

/-- In contract a channel is the formula of R100, for each of the symmetric output ranges. -/
theorem mapSymmetric_eq_channel (hcontract : Rule.tickInContract s) (v : Word) (range : BitVec 31) :
    s.loop.mapSymmetric v range = Rule.channel s v range := by
  have := EncodingProofs.uval_nonneg range
  exact RangeMapperProofs.mapValue_eq_mapped ⟨EncodingProofs.uval_nonneg _, hcontract, by omega⟩ _

/-- The weapon's map has no deadband, so that it keeps its contract wherever the channels keep theirs. -/
theorem weapon_eq_rule (hcontract : Rule.tickInContract s) : s.weapon = Rule.weapon s := by
  have hspan : s.loop.inLow.toInt + 2 * 0 < s.loop.inHigh.toInt := by
    unfold Rule.tickInContract at hcontract
    omega
  exact RangeMapperProofs.mapValue_eq_mapped ⟨le_rfl, hspan, EncodingProofs.uval_nonneg _⟩ _

theorem abs_mapSymmetric_le (c : LoopConfig) (v : Word) (range : BitVec 31) :
    |c.mapSymmetric v range| ≤ (range.toNat : Int) := by
  have := EncodingProofs.uval_nonneg range
  exact abs_le.2 (mapValue_mem (by omega))

theorem weapon_mem (s : State) : 0 ≤ s.weapon ∧ s.weapon ≤ s.loop.weaponRange.toNat :=
  mapValue_mem (EncodingProofs.uval_nonneg _)

theorem toNat_pattern_weapon (s : State) : ((pattern 32 s.weapon).toNat : Int) = s.weapon := by
  obtain ⟨hlow, hhigh⟩ := weapon_mem s
  have := s.loop.weaponRange.isLt
  exact toNat_pattern32 hlow (by omega)

/-! The shaping of the drives (R232). -/

theorem shape_eq_driveValue (s : State) (x : Int) : s.loop.shape x = Rule.driveValue s x := by
  have := EncodingProofs.uval_nonneg s.loop.driveRange
  simp only [LoopConfig.shape, clamp_eq_max_min (show -uval s.loop.driveRange ≤ uval s.loop.driveRange by omega),
    absOf_eq]
  rfl

/-- A shaped value is 0, or a value of the drive range that the output deadband lets pass. -/
theorem shape_cases (c : LoopConfig) (x : Int) :
    c.shape x = 0 ∨ ((c.outDeadband.toNat : Int) ≤ |c.shape x| ∧ |c.shape x| ≤ c.driveRange.toNat) := by
  have hrange := EncodingProofs.uval_nonneg c.driveRange
  unfold LoopConfig.shape
  dsimp only
  split
  · exact .inl rfl
  · rename_i hpass
    rw [absOf_eq, not_lt] at hpass
    exact .inr ⟨hpass, abs_le.2 ⟨le_clamp (by omega), clamp_le (by omega)⟩⟩

theorem abs_shape_le (c : LoopConfig) (x : Int) : |c.shape x| ≤ (c.driveRange.toNat : Int) := by
  obtain hzero | ⟨-, hle⟩ := shape_cases c x
  · rw [hzero, abs_zero]
    exact EncodingProofs.uval_nonneg _
  · exact hle

theorem toInt_pattern_shape (c : LoopConfig) (x : Int) : (pattern 32 (c.shape x)).toInt = c.shape x := by
  obtain ⟨hlow, hhigh⟩ := abs_le.1 (abs_shape_le c x)
  have := c.driveRange.isLt
  exact toInt_pattern32 (by omega) (by omega)

/-! The PID's operands on a gyro-stabilized tick (R233). -/

/-- The negated yaw target fits the set-point. -/
theorem toInt_yawPid_setpoint (s : State) : s.yawPid.setpoint.toInt = -s.yawTarget * 65536 := by
  obtain ⟨hlow, hhigh⟩ := abs_le.1 (abs_mapSymmetric_le s.loop s.chan.ch[0] s.loop.yawFs)
  have := s.loop.yawFs.isLt
  change -_ ≤ s.yawTarget at hlow
  change s.yawTarget ≤ _ at hhigh
  change (pattern 64 (-s.yawTarget * 65536)).toInt = _
  exact toInt_pattern64 (by omega) (by omega)

/-- The bias-corrected rate as Q47.16 is an s64 value. -/
theorem yawMeasurement_range (s : State) (gz : Half) :
    -2 ^ 63 ≤ s.yawMeasurement gz ∧ s.yawMeasurement gz < 2 ^ 63 := by
  have := toInt16_range gz
  have := toInt16_range s.cal.bias[2]
  change -2 ^ 63 ≤ (gz.toInt - s.cal.bias[2].toInt) * 65536 ∧ (gz.toInt - s.cal.bias[2].toInt) * 65536 < 2 ^ 63
  omega

end Values

end Sys2Proof.ControlLoopProofs
end

section
/-! SUPPORT. The cases of a tick (R231, R236): stopped, without valid channels, mixed, fallen back, violating; and the
outputs that each leaves. -/

namespace Sys2Proof.ControlLoopProofs

open Sys2Proof.Machine Sys2Proof.Laws

section Ticks

variable {s : State}

/-! The command by the state of the loop. -/

theorem exec_ctrlTick_stopped (gx gy gz : Half) (gerr : Bool) (hstopped : s.seq.loopRun = false) :
    exec (.ctrlTick gx gy gz gerr) s = .next s :=
  if_neg (by rw [hstopped]; exact Bool.false_ne_true)

theorem exec_ctrlTick_invalid (gx gy gz : Half) (gerr : Bool) (hrun : s.seq.loopRun = true)
    (hinvalid : s.chan.valid = false) : exec (.ctrlTick gx gy gz gerr) s = .next s.toggleLoop.neutral :=
  execCtrlTick_invalid gx gy gz gerr hrun hinvalid

theorem exec_ctrlTick_valid (gx gy gz : Half) (gerr : Bool) (hrun : s.seq.loopRun = true)
    (hvalid : s.chan.valid = true) :
    exec (.ctrlTick gx gy gz gerr) s = .next (s.toggleLoop.validTick gz gerr) :=
  execCtrlTick_valid gx gy gz gerr hrun hvalid

/-! A valid tick by the gyro error and its policy. -/

theorem gyroError_iff {gerr : Bool} : s.gyroError gerr = true ↔ s.seq.mode = .gyroStabilized ∧ gerr = true := by
  simp [State.gyroError]

theorem validTick_manualThisTick {gerr : Bool} (gz : Half) (herror : s.gyroError gerr = true)
    (hpolicy : s.inp.gyroErrPolicy = .manualThisTick) : s.validTick gz gerr = s.gyroFall.mix gz := by
  rw [State.validTick, if_pos herror, hpolicy]

theorem validTick_neutralThisTick {gerr : Bool} (gz : Half) (herror : s.gyroError gerr = true)
    (hpolicy : s.inp.gyroErrPolicy = .neutralThisTick) : s.validTick gz gerr = s.gyroFall.neutral := by
  rw [State.validTick, if_pos herror, hpolicy]

/-- Out of GyroStabilized mode no tick reads the gyro. -/
theorem mix_manual_any_rate (hmode : s.seq.mode = .manual) (gz gz' : Half) : s.mix gz = s.mix gz' := by
  simp only [State.mix, hmode]

/-! The outputs of a mixed tick. -/

/-- The end of a tick in contract, whatever the PID elements beside it (R231, R232). -/
theorem mixOut_mixedTick (hcontract : Rule.tickInContract s) (left right : Int) (p : PidState) :
    Rule.mixedTick s { s.toggleLoop.mixOut left right with pid := p } left right p := by
  refine ⟨(toInt_pattern_shape s.loop left).trans (shape_eq_driveValue s left),
    (toInt_pattern_shape s.loop right).trans (shape_eq_driveValue s right), ?weapon, rfl, rfl⟩
  case weapon =>
    change ((if s.fs.faultLatch then 0 else pattern 32 s.weapon : Word).toNat : Int) = _
    cases s.fs.faultLatch with
    | true => rfl
    | false => exact (toNat_pattern_weapon s).trans (weapon_eq_rule hcontract)

/-- The outputs lie in the ranges that the configuration c gives them (R239). -/
def Contained (c : LoopConfig) (q : ControlSequencer) : Prop :=
  |q.driveLeft.toInt| ≤ c.driveRange.toNat ∧ |q.driveRight.toInt| ≤ c.driveRange.toNat ∧
  (q.driveLeft = 0 ∨ (c.outDeadband.toNat : Int) ≤ |q.driveLeft.toInt|) ∧
  (q.driveRight = 0 ∨ (c.outDeadband.toNat : Int) ≤ |q.driveRight.toInt|) ∧
  q.weaponWidth.toNat ≤ c.weaponRange.toNat

theorem neutral_contained (s : State) : Contained s.loop s.neutral.seq := by
  simp [Contained]

/-- A shaped drive is in its range and passes the output deadband. -/
theorem pattern_shape_contained (c : LoopConfig) (x : Int) :
    |(pattern 32 (c.shape x)).toInt| ≤ c.driveRange.toNat ∧
    (pattern 32 (c.shape x) = 0 ∨ (c.outDeadband.toNat : Int) ≤ |(pattern 32 (c.shape x)).toInt|) := by
  rw [toInt_pattern_shape]
  refine ⟨abs_shape_le c x, (shape_cases c x).imp (fun hzero => ?_) And.left⟩
  rw [hzero]
  rfl

theorem mixOut_contained (s : State) (left right : Int) : Contained s.loop (s.mixOut left right).seq := by
  obtain ⟨hleft, hleftBand⟩ := pattern_shape_contained s.loop left
  obtain ⟨hright, hrightBand⟩ := pattern_shape_contained s.loop right
  refine ⟨hleft, hright, hleftBand, hrightBand, ?weapon⟩
  case weapon =>
    change (if s.fs.faultLatch then 0 else pattern 32 s.weapon : Word).toNat ≤ _
    have hweapon := toNat_pattern_weapon s
    obtain ⟨-, hhigh⟩ := weapon_mem s
    split
    · exact Nat.zero_le _
    · omega

theorem mix_contained (hcontract : s.loop.contractHolds = true) (gz : Half) : Contained s.loop (s.mix gz).seq := by
  cases hmode : s.seq.mode with
  | manual => rw [mix_manual gz hcontract hmode]; exact mixOut_contained s _ _
  | gyroStabilized => rw [mix_gyro gz hcontract hmode]; exact mixOut_contained s _ _

/-- A valid tick mixes in contract, or is neutral by its policy, or violates its contract. -/
theorem validTick_contained {gerr : Bool} (gz : Half)
    (hkept : s.loop.contractHolds = true ∨
      (s.seq.mode = .gyroStabilized ∧ gerr = true ∧ s.inp.gyroErrPolicy = .neutralThisTick)) :
    Contained s.loop (s.validTick gz gerr).seq := by
  by_cases herror : s.gyroError gerr = true
  · cases hpolicy : s.inp.gyroErrPolicy with
    | neutralThisTick => rw [validTick_neutralThisTick gz herror hpolicy]; exact neutral_contained s.gyroFall
    | manualThisTick =>
      have hcontract := hkept.resolve_right fun ⟨_, _, h⟩ => by rw [hpolicy] at h; cases h
      rw [validTick_manualThisTick gz herror hpolicy]
      exact mix_contained (s := s.gyroFall) hcontract gz
  · have hcontract := hkept.resolve_right fun ⟨hmode, hgerr, _⟩ => herror (gyroError_iff.2 ⟨hmode, hgerr⟩)
    rw [validTick_noError gz (Bool.eq_false_of_not_eq_true herror)]
    exact mix_contained hcontract gz

/-! A violating tick. -/

theorem contractHolds_eq_false (hbroken : ¬ Rule.tickInContract s) : s.loop.contractHolds = false :=
  Bool.eq_false_of_not_eq_true fun h => hbroken ((contractHolds_iff s.loop).1 h)

theorem contractViolation_faulted (s : State) (m : ControlMode) : (s.contractViolation m).faulted = true :=
  Bool.or_true _

end Ticks

/-! Sequences of commands. -/

/-- What every command keeps, every sequence of commands keeps. -/
theorem execAll_keeps {P : State → Prop} (hstep : ∀ {i s t}, P s → exec i s = .next t → P t) {is : List Instr}
    {s u : State} (hs : P s) (h : execAll is s = .next u) : P u := by
  induction is generalizing s with
  | nil => cases h; exact hs
  | cons i is ih =>
    unfold execAll at h
    split at h
    · rename_i t hexec
      exact ih (hstep hs hexec) h
    all_goals cases h

/-- No command stops the loop (R230). -/
theorem exec_keeps_loopRun {i : Instr} {s t : State} (hrun : s.seq.loopRun = true) (h : exec i s = .next t) :
    t.seq.loopRun = true := by
  cases StateProofs.exec_effect h with
  | loopStart => rfl
  | tick gx gy gz gerr q p md k htick => exact htick.loopRun.trans hrun
  | _ => exact hrun

end Sys2Proof.ControlLoopProofs
end

section
/-! The statements about the control loop (R230 to R239). -/

namespace Sys2Proof.ControlLoopProofs

open Sys2Proof.Machine Sys2Proof.Laws

/-- Settles O40. -/
theorem loopStartRunsUnlessCalibrating : Obligations.LoopStartRunsUnlessCalibrating := by
  refine ⟨EncodingProofs.decode_of_assemble .loopStart 0 rfl (.inl rfl) rfl,
    fun s => ⟨?_, fun _ _ h hrun => exec_keeps_loopRun hrun h⟩⟩
  change execLoopStart s = _
  unfold execLoopStart
  split <;> rfl

/-- Settles O41. -/
theorem stoppedAndInvalidTicksAreInert : Obligations.StoppedAndInvalidTicksAreInert :=
  fun _ gx gy gz gerr => ⟨exec_ctrlTick_stopped gx gy gz gerr, exec_ctrlTick_invalid gx gy gz gerr⟩

/-- Settles O42: the tick ends in `mixOut`, with the mapped channels as its sums. -/
theorem manualTickMixesElevatorAndAileron : Obligations.ManualTickMixesElevatorAndAileron := by
  intro s gx gy gz gerr hrun hvalid hmode hcontract
  refine ⟨_, EncodingProofs.exec_ctrlTick_manual gx gy gz gerr hrun hvalid hmode
    ((contractHolds_iff s.loop).2 hcontract), ?_⟩
  rw [← mapSymmetric_eq_channel hcontract, ← mapSymmetric_eq_channel hcontract]
  exact mixOut_mixedTick hcontract (s.elevator - s.aileron) (s.elevator + s.aileron) s.pid

/-- Settles O43: the tick ends in `mixOut`, with the PID's step beside it. -/
theorem gyroTickMixesElevatorAndPidCorrection : Obligations.GyroTickMixesElevatorAndPidCorrection := by
  intro s gx gy gz hrun hvalid hmode hcontract hlimits
  obtain ⟨hlow, hhigh⟩ := yawMeasurement_range s gz
  have hcorrection : s.yawCorrection gz = (Rule.output s.yawPid (s.yawMeasurement gz)).tdiv 65536 :=
    congrArg unfx (PidProofs.stepOut_eq_output (p := s.yawPid) hlimits _)
  refine ⟨_, s.yawPid, _, s.yawMeasurement gz, s.yawCorrection gz,
    PidProofs.exec_ctrlTick_gyro gx gy gz hrun hvalid hmode hcontract, rfl, ?setpoint, rfl,
    PidProofs.stepped_pidStepped (p := s.yawPid) hlimits hlow hhigh, hcorrection, ?mixed⟩
  case setpoint =>
    rw [← mapSymmetric_eq_channel hcontract]
    exact toInt_yawPid_setpoint s
  case mixed =>
    rw [← mapSymmetric_eq_channel hcontract]
    exact mixOut_mixedTick hcontract (s.elevator + s.yawCorrection gz) (s.elevator - s.yawCorrection gz) _

/-- Settles O44: the fallback leaves a state in Manual mode, whose tick reads no gyro operand. -/
theorem gyroErrorTickFallsBack : Obligations.GyroErrorTickFallsBack := by
  intro s gx gy gz hrun hvalid hmode
  have herror : s.toggleLoop.gyroError true = true := gyroError_iff.2 ⟨hmode, rfl⟩
  refine ⟨fun hpolicy => ?manual, fun hpolicy => ?neutral⟩
  case manual =>
    calc exec (.ctrlTick gx gy gz true) s
      _ = .next (s.toggleLoop.validTick gz true) := exec_ctrlTick_valid gx gy gz true hrun hvalid
      _ = .next (s.toggleLoop.gyroFall.mix gz) := by rw [validTick_manualThisTick gz herror hpolicy]
      _ = .next (s.gyroFall.toggleLoop.mix 0) := by rw [← mix_manual_any_rate rfl gz 0]; rfl
      _ = .next (s.gyroFall.toggleLoop.validTick 0 false) := by rw [validTick_noError 0 rfl]
      _ = exec (.ctrlTick 0 0 0 false) s.gyroFall :=
        (exec_ctrlTick_valid (s := s.gyroFall) 0 0 0 false hrun hvalid).symm
  case neutral =>
    rw [exec_ctrlTick_valid gx gy gz true hrun hvalid, validTick_neutralThisTick gz herror hpolicy]
    rfl

/-- Settles O45: the tick leaves a fallen-back state, and every command keeps one. -/
theorem gyroFallbackLastsTheSession : Obligations.GyroFallbackLastsTheSession := by
  intro s t u gx gy gz is hdone hrun hvalid hmode htick hrest
  obtain ⟨-, hbyTick, -⟩ := CalibratorProofs.everyStepKeepsTheFallback
  have ht := hbyTick s t gx gy gz hdone hrun hvalid hmode htick
  obtain ⟨htmode, htfall, -⟩ := id ht
  obtain ⟨humode, hufall, -⟩ := execAll_keeps CalibratorProofs.exec_keeps_fallenBack ht hrest
  exact ⟨htmode, htfall, humode, hufall⟩

/-- Settles O47: without valid channels the outputs are neutral, and with them the tick mixes in contract or falls back
to neutral. -/
theorem tickOutputsStayContained : Obligations.TickOutputsStayContained := by
  intro s t gx gy gz gerr hrun hkept h
  cases hvalid : s.chan.valid with
  | false =>
    cases (exec_ctrlTick_invalid gx gy gz gerr hrun hvalid).symm.trans h
    obtain ⟨hleft, hright, hleftBand, hrightBand, hweapon⟩ := neutral_contained s.toggleLoop
    exact ⟨hleft, hright, hleftBand, hrightBand, hweapon, fun _ => ⟨rfl, rfl, rfl, rfl⟩⟩
  | true =>
    cases (exec_ctrlTick_valid gx gy gz gerr hrun hvalid).symm.trans h
    have hcontained : Contained s.loop (s.toggleLoop.validTick gz gerr).seq := by
      refine validTick_contained (s := s.toggleLoop) gz (or_iff_not_imp_right.2 fun hneutral => ?_)
      refine (contractHolds_iff s.loop).2 (not_not.1 fun hbroken => hkept ?_)
      exact ⟨gx, gy, gz, gerr, rfl, hrun, hvalid, hbroken, hneutral⟩
    obtain ⟨hleft, hright, hleftBand, hrightBand, hweapon⟩ := hcontained
    exact ⟨hleft, hright, hleftBand, hrightBand, hweapon, fun hinvalid => by cases hinvalid⟩

/-- Settles O48: the violation comes after the fallback, in Manual mode, or without one, in MODE. -/
theorem violatingTickLeavesOnlyItsOutputsOpen : Obligations.ViolatingTickLeavesOnlyItsOutputsOpen := by
  intro s gx gy gz gerr hrun hvalid hbroken hpolicy
  have hfalse := contractHolds_eq_false hbroken
  rw [exec_ctrlTick_valid gx gy gz gerr hrun hvalid]
  by_cases herror : s.seq.mode = .gyroStabilized ∧ gerr = true
  · obtain ⟨hmode, rfl⟩ := id herror
    refine ⟨s.toggleLoop.gyroFall.contractViolation .manual, ?_, contractViolation_faulted _ _, ?_⟩
    · rw [validTick_manualThisTick (s := s.toggleLoop) gz (gyroError_iff.2 herror) (hpolicy hmode rfl),
        mix_violation (s := s.toggleLoop.gyroFall) gz hfalse]
      rfl
    · rw [if_pos herror, if_neg (by simp)]
      rfl
  · refine ⟨s.toggleLoop.contractViolation s.seq.mode, ?_, contractViolation_faulted _ _, ?_⟩
    · rw [validTick_noError (s := s.toggleLoop) gz (Bool.eq_false_of_not_eq_true fun h => herror (gyroError_iff.1 h)),
        mix_violation (s := s.toggleLoop) gz hfalse]
      rfl
    · rw [if_neg herror]
      cases hmode : s.seq.mode with
      | manual => rfl
      | gyroStabilized =>
        have hgerr : gerr = false := Bool.eq_false_of_not_eq_true fun h => herror ⟨hmode, h⟩
        rw [if_pos ⟨rfl, hgerr⟩]
        rfl

end Sys2Proof.ControlLoopProofs
end

section
/-! NOP, REG_READ and REG_WRITE (R260 to R265): which addresses are writable, what a write stores, and what it leaves. -/

namespace Sys2Proof.RegisterAccessProofs

open Sys2Proof.Machine Sys2Proof.Laws Sys2Proof.StateProofs Sys2Proof.EncodingProofs

/-! The rows of the address map. -/

/-- The map has one row for an address, and the search finds it (R31). -/
theorem regAt_row : ∀ row ∈ regMap, regAt row.addr = some row := by decide

/-- No register stands at two addresses (R31). -/
theorem regs_nodup : (regMap.map RegRow.reg).Nodup := by decide

theorem row_eq_of_addr_eq {row row' : RegRow} (h : row ∈ regMap) (h' : row' ∈ regMap) (haddr : row.addr = row'.addr) :
    row = row' :=
  Option.some.inj ((regAt_row row h).symm.trans (haddr ▸ regAt_row row' h'))

theorem row_eq_of_reg_eq {row row' : RegRow} (h : row ∈ regMap) (h' : row' ∈ regMap) (hreg : row.reg = row'.reg) :
    row = row' :=
  List.inj_on_of_nodup_map regs_nodup h h' hreg

/-- The rows marked RW are those at the writable addresses (R31, R262). -/
theorem access_eq_rw_iff : ∀ row ∈ regMap, (row.access = .rw ↔ Rule.isWritable row.addr) := by
  unfold Rule.isWritable; decide

theorem not_isUnmapped_of_isWritable {a : RegAddr} (h : Rule.isWritable a) : ¬ Rule.isUnmapped a := by
  obtain ⟨halign, -, hlast⟩ := h
  rintro (hmisaligned | rfl | rfl | hbeyond)
  · exact hmisaligned halign
  · exact absurd hlast (by decide)
  · exact absurd hlast (by decide)
  · omega

/-- A mapped address has its row. -/
theorem exists_row_of_mapped {a : RegAddr} (h : ¬ Rule.isUnmapped a) :
    ∃ row ∈ regMap, row.addr = a ∧ regAt a = some row := by
  obtain ⟨row, hrow⟩ := Option.ne_none_iff_exists'.1 (mt (regAt_eq_none_iff a).1 h)
  obtain ⟨hmem, haddr⟩ := regAt_some hrow
  exact ⟨row, hmem, haddr, hrow⟩

/-! REG_WRITE by the row of the address. -/

section

variable {s : State} {a : RegAddr} {row : RegRow}

theorem exec_regWrite_rw (h : regAt a = some row) (hrw : row.access = .rw) (v : Word) :
    exec (.regWrite a v) s = .next (s.writeReg row.reg v) := by
  change execRegWrite a v s = _
  simp only [execRegWrite, h, hrw]

/-- A write that no writable register takes sets ERR_BAD_REG, whether the address is read-only or no register (R64). -/
theorem exec_regWrite_refused (h : ¬ Rule.isWritable a) (v : Word) :
    exec (.regWrite a v) s = .next (s.raise .badReg) := by
  change execRegWrite a v s = _
  unfold execRegWrite
  cases hrow : regAt a with
  | none => rfl
  | some row =>
    obtain ⟨hmem, rfl⟩ := regAt_some hrow
    cases hacc : row.access with
    | ro => simp only [hacc]
    | rw => exact absurd ((access_eq_rw_iff row hmem).1 hacc) h

end

/-! What `writeValue` stores and what it leaves (R264). -/

/-- `writeValue` changes the configuration alone. -/
theorem writeReg_eq (s : State) (r : Reg) (v : Word) :
    s.writeReg r v = { s with inp := (s.writeReg r v).inp, loop := (s.writeReg r v).loop } := by
  cases r <;> rfl

/-- A register other than the one written reads as before: each arm of `writeValue` sets the fields of one register. -/
theorem readReg_writeReg_of_ne {r q : Reg} (h : q ≠ r) (s : State) (v : Word) :
    (s.writeReg r v).readReg q = s.readReg q := by
  cases r with
  | config | syncGap | pulseMin | pulseMax | neutral | timeout | inLow | inHigh | chDeadband | driveRange | outDeadband
  | weaponRange | yawFs =>
    cases q <;> try rfl
    exact absurd rfl h
  | _ => rfl

/-- A field of n bits, stored from a word and read zero-extended, is the word under its mask. -/
theorem setWidth_setWidth_eq_and_mask {n : Nat} (v : Word) (hn : n ≤ 32) :
    (v.setWidth n).setWidth 32 = v &&& BitVec.ofNat 32 (2 ^ n - 1) := by
  apply BitVec.eq_of_toNat_eq
  have hpow : 2 ^ n ≤ 2 ^ 32 := Nat.pow_le_pow_right (by decide) hn
  have hpos : 0 < 2 ^ n := Nat.two_pow_pos n
  rw [BitVec.toNat_and, BitVec.toNat_ofNat, Nat.mod_eq_of_lt (by omega), Nat.and_two_pow_sub_one_eq_mod,
    BitVec.toNat_setWidth_of_le hn, BitVec.toNat_setWidth]

/-- A word is its three low bits where the bits above them are 0. -/
theorem eq_and_seven {w v : Word} (h0 : w.getLsbD 0 = v.getLsbD 0) (h1 : w.getLsbD 1 = v.getLsbD 1)
    (h2 : w.getLsbD 2 = v.getLsbD 2) (hhigh : w.extractLsb' 3 29 = 0) : w = v &&& 0x7 := by
  apply BitVec.eq_of_getLsbD_eq
  intro i hi
  have hmask : (0x7 : Word) = BitVec.setWidth 32 (BitVec.allOnes 3) := rfl
  rw [BitVec.getLsbD_and, hmask, BitVec.getLsbD_setWidth, BitVec.getLsbD_allOnes]
  by_cases hlow : i < 3
  · rw [decide_eq_true hi, decide_eq_true hlow, Bool.and_true, Bool.and_true]
    interval_cases i <;> assumption
  · have hbit := congrArg (fun x : BitVec 29 => x.getLsbD (i - 3)) hhigh
    rw [BitVec.getLsbD_extractLsb'] at hbit
    simpa [hlow, show 3 + (i - 3) = i by omega, show i - 3 < 29 by omega] using hbit

theorem decide_faultPolicyOf (b : Bool) : decide (faultPolicyOf b = .cutWeapon) = b := by cases b <;> rfl

theorem decide_gyroErrPolicyOf (b : Bool) : decide (gyroErrPolicyOf b = .neutralThisTick) = b := by cases b <;> rfl

/-- The three bits of CONFIG survive their elements (R34). -/
theorem configWord_writeReg (s : State) (v : Word) : (s.writeReg .config v).configWord = v &&& 0x7 := by
  obtain ⟨hrecenter, hfault, hgyro, hhigh⟩ := configWord_fields (s.writeReg .config v)
  exact eq_and_seven hrecenter (hfault.trans (decide_faultPolicyOf _)) (hgyro.trans (decide_gyroErrPolicyOf _)) hhigh

/-- A writable register reads back as the value written, under its mask (R34, R36, R264). -/
theorem readReg_writeReg_self (s : State) (v : Word) :
    ∀ row ∈ regMapConfig, (s.writeReg row.reg v).readReg row.reg = v &&& Rule.writeMask row.addr := by
  have hhalf : (v.setWidth 16).setWidth 32 = v &&& 0xFFFF := setWidth_setWidth_eq_and_mask v (by decide)
  have hfield : (v.setWidth 31).setWidth 32 = v &&& 0x7FFFFFFF := setWidth_setWidth_eq_and_mask v (by decide)
  have hword : v = v &&& 0xFFFFFFFF := BitVec.and_allOnes.symm
  simp only [regMapConfig, List.forall_mem_cons, List.not_mem_nil, false_implies, implies_true, and_true]
  exact ⟨configWord_writeReg s v, hword, hhalf, hhalf, hhalf, hword, hword, hword, hfield, hfield, hfield, hfield, hfield⟩

/-- The rows marked RW are those of the configuration. -/
theorem mem_regMapConfig_of_rw : ∀ row ∈ regMap, row.access = .rw → row ∈ regMapConfig := by decide

/-! The obligations. -/

/-- Settles O50: word 0 = 0 decodes to NOP or to nothing, so that what encodes with it is NOP. -/
theorem nopChangesNothing : Obligations.NopChangesNothing := by
  have hnop : decode ⟨0, []⟩ = .ok .nop := decode_of_assemble .nop 0 rfl (.inl rfl) rfl
  have hlong (w : Word) (ws : List Word) : decode ⟨0, w :: ws⟩ = .error .wrongLength :=
    decode_word0Of .nop 0 (w :: ws) (.inl rfl)
  refine ⟨hnop, hlong, fun s => rfl, fun i hzero => ?_⟩
  have hdecode : decode ⟨0, i.operandList⟩ = .ok i := hzero ▸ decodeOfEncodeIsTheCommand i
  cases hops : i.operandList with
  | nil => rw [hops, hnop] at hdecode; cases hdecode; rfl
  | cons w ws => rw [hops, hlong] at hdecode; cases hdecode

/-- Settles O51. -/
theorem regReadEmitsTheRegisterOrZero : Obligations.RegReadEmitsTheRegisterOrZero := by
  intro s a
  refine ⟨decode_of_assemble .regRead a rfl (.inr rfl) rfl,
    fun hunmapped => exec_regRead_unmapped ((regAt_eq_none_iff a).2 hunmapped), fun hmapped => ?_⟩
  obtain ⟨row, hmem, haddr, hrow⟩ := exists_row_of_mapped hmapped
  exact ⟨row, hmem, haddr, exec_regRead_mapped hrow⟩

/-- Settles O52. -/
theorem regWriteReachesOnlyWritableRegisters : Obligations.RegWriteReachesOnlyWritableRegisters := by
  intro s a v
  refine ⟨decode_of_assemble .regWrite a rfl (.inr rfl) rfl, fun hwritable => ?_, fun h => exec_regWrite_refused h v⟩
  obtain ⟨row, hmem, rfl, hrow⟩ := exists_row_of_mapped (not_isUnmapped_of_isWritable hwritable)
  have hrw : row.access = .rw := (access_eq_rw_iff row hmem).2 hwritable
  refine ⟨(s.writeReg row.reg v).inp, (s.writeReg row.reg v).loop, ?_, fun row' hmem' => ?_⟩
  · rw [← writeReg_eq]
    exact exec_regWrite_rw hrow hrw v
  · rw [← writeReg_eq]
    split_ifs with haddr
    · obtain rfl := row_eq_of_addr_eq hmem' hmem haddr
      exact readReg_writeReg_self s v row' (mem_regMapConfig_of_rw row' hmem hrw)
    · exact readReg_writeReg_of_ne (fun hreg => haddr (row_eq_of_reg_eq hmem' hmem hreg ▸ rfl)) s v

/-- Settles O53: the read finds in the written register what the write stored. -/
theorem writtenRegisterReadsBackMasked : Obligations.WrittenRegisterReadsBackMasked := by
  intro s a v hwritable
  obtain ⟨-, hwrite, -⟩ := regWriteReachesOnlyWritableRegisters s a v
  obtain ⟨c, l, hexec, hread⟩ := hwrite hwritable
  obtain ⟨row, hmem, haddr, hrow⟩ := exists_row_of_mapped (not_isUnmapped_of_isWritable hwritable)
  have hstored := hread row hmem
  rw [if_pos haddr] at hstored
  exact ⟨_, (execAll_cons hexec).trans (execAll_cons (exec_regRead_mapped hrow)), by rw [hstored]⟩

end Sys2Proof.RegisterAccessProofs
end

section
/-! The errors and the command port (spec/60_exceptions.md): the order of arbitration, frames from any agent, the error
bits, and the events that run no command. -/

namespace Sys2Proof.PortProofs

open Sys2Proof.Machine Sys2Proof.Laws Sys2Proof.StateProofs Sys2Proof.StepProofs

/-! Arbitration (R285). -/

section Arbitration

variable {who others : List Agent} {a : Agent}

theorem mem_agentPriority (a : Agent) : a ∈ agentPriority := by cases a <;> decide

theorem arbitrate_eq_map (who : List Agent) :
    arbitrate who = (agentPriority.find? (fun a => who.contains a)).map (fun a => (a, who.erase a)) := by
  unfold arbitrate
  split <;> rename_i hfind <;> rw [hfind] <;> rfl

theorem arbitrate_eq_some_iff : arbitrate who = some (a, others) ↔
    agentPriority.find? (fun b => who.contains b) = some a ∧ others = who.erase a := by
  rw [arbitrate_eq_map, Option.map_eq_some_iff]
  constructor
  · rintro ⟨b, hfind, hpair⟩
    cases hpair
    exact ⟨hfind, rfl⟩
  · rintro ⟨hfind, rfl⟩
    exact ⟨a, hfind, rfl⟩

/-- Every agent has its place in the order, so that an arrival of any agent finds one to accept. -/
theorem arbitrate_eq_none_iff : arbitrate who = none ↔ who = [] := by
  rw [arbitrate_eq_map, Option.map_eq_none_iff, List.find?_eq_none, List.eq_nil_iff_forall_not_mem]
  simp only [mem_agentPriority, true_imp_iff, List.contains_iff_mem]

theorem arbitrate_singleton (a : Agent) : arbitrate [a] = some (a, []) := by cases a <;> rfl

/-- What a search finds stands no later in the list than anything else it could have found. -/
theorem idxOf_le_of_find? {α : Type} [BEq α] [LawfulBEq α] {l : List α} {p : α → Bool} {x y : α}
    (hfind : l.find? p = some x) (hy : p y = true) : l.idxOf x ≤ l.idxOf y := by
  obtain ⟨hx, before, after, rfl, hbefore⟩ := List.find?_eq_some_iff_append.mp hfind
  have hnotMem {z : α} (hz : p z = true) : z ∉ before := fun hmem => by simpa [hz] using hbefore z hmem
  rw [List.idxOf_append_of_notMem (hnotMem hx), List.idxOf_append_of_notMem (hnotMem hy), List.idxOf_cons_self]
  omega

end Arbitration

/-- Settles O8: the port searches its agents in the order of R285. -/
theorem portAcceptsHighestPriorityFirst : Obligations.PortAcceptsHighestPriorityFirst := by
  refine fun who => ⟨arbitrate_eq_none_iff.symm, fun a others h => ?_⟩
  obtain ⟨hfind, hothers⟩ := arbitrate_eq_some_iff.1 h
  have hmem : a ∈ who := List.contains_iff_mem.1 (List.find?_some hfind)
  exact ⟨hmem, hothers, fun b hb => idxOf_le_of_find? hfind (List.contains_iff_mem.2 hb)⟩

/-! A frame offered by one agent alone (R6, R289). -/

section Offers

variable {s : State}

/-- Accepting the frame just offered leaves the state it was offered in. -/
theorem accepted_offer (s : State) (a : Agent) (f : Frame) :
    ((s.offer a f).setSchedule s.env.schedule).setStream a (s.env.streams.get a) = s := by
  simp [State.offer, State.setStream, State.setSchedule]

theorem step_offer (hrst : s.env.rst = false) (a : Agent) (f : Frame) : step (s.offer a f) = runFrame f s := by
  have hstream : (s.offer a f).env.streams.get a = f :: s.env.streams.get a := by simp [State.offer]
  calc step (s.offer a f)
      = runFrame f (((s.offer a f).setSchedule s.env.schedule).setStream a (s.env.streams.get a)) :=
        step_accepted_frame (s := s.offer a f) hrst rfl (arbitrate_singleton a) hstream
    _ = runFrame f s := by rw [accepted_offer]

end Offers

/-- Settles O7: the frame runs in the same state whichever agent sends it. -/
theorem anyAgentMaySendAnyFrame : Obligations.AnyAgentMaySendAnyFrame :=
  fun a b f _ hrst => ⟨step_offer hrst a f, (step_offer hrst b f).trans (step_offer hrst a f).symm⟩

/-! The error bits (R281, R286). -/

section Errors

variable {s t : State}

/-- A command leaves the error bits, or they become what one `raise` makes of them. -/
theorem err_of_effect {i : Instr} (h : Effect s i t) : t.err = s.err ∨ ∃ e, t.err = (s.raise e).err := by
  cases h with
  | mapViolation => exact .inr ⟨.mapDomain, rfl⟩
  | badRead => exact .inr ⟨.badReg, rfl⟩
  | badWrite => exact .inr ⟨.badReg, rfl⟩
  | tick gx gy gz gerr q p md k htick hmd =>
    obtain rfl | rfl := hmd
    · exact .inl rfl
    · exact .inr ⟨.mapDomain, rfl⟩
  | _ => exact .inl rfl

theorem runFrame_err {f : Frame} (h : runFrame f s = .next t) : t.err = s.err ∨ ∃ e, t.err = (s.raise e).err := by
  cases hdecode : decode f with
  | ok i => exact err_of_effect (exec_effect (runFrame_decoded hdecode s ▸ h))
  | error e =>
    rw [runFrame_illegal hdecode] at h
    cases h
    exact .inr ⟨.illegalOp, rfl⟩

end Errors

/-- Settles O58: a frame raises at most one error, and a raised bit clears none. -/
theorem errorBitsAreStickyAndSetOneAtATime : Obligations.ErrorBitsAreStickyAndSetOneAtATime := by
  intro f s t h
  obtain hsame | ⟨e, hraise⟩ := runFrame_err h
  · rw [hsame]
    exact ⟨id, id, id, .inl rfl⟩
  · obtain ⟨hillegal, hreg, hmap⟩ := raise_keeps s e
    rw [hraise]
    refine ⟨hillegal, hreg, hmap, .inr ?_⟩
    cases e with
    | illegalOp => exact .inl rfl
    | badReg => exact .inr (.inl rfl)
    | mapDomain => exact .inr (.inr rfl)

/-! The events that run no command (R295, R310). -/

section QuietEvents

variable {s : State} {rest : List Event}

theorem step_idle (hschedule : s.env.schedule = []) : step s = .next s := by
  unfold step eventStep
  rw [hschedule]

theorem step_rst {level : Bool} (hschedule : s.env.schedule = .rst level :: rest) :
    step s = .next ((s.setSchedule rest).driveRst level) := by
  unfold step eventStep
  rw [hschedule]

theorem step_take (hschedule : s.env.schedule = .take :: rest) : step s = .next (s.setSchedule rest).takeResponse := by
  unfold step eventStep
  rw [hschedule]

theorem agentStep_silent {a : Agent} (hstream : s.env.streams.get a = []) : agentStep a s = .next s := by
  unfold agentStep
  rw [hstream]

/-- An arrival at an asserted rst, of no agent, or of a first agent with nothing to send, changes the schedule alone. -/
theorem step_quiet_arrival {who : List Agent} (hschedule : s.env.schedule = .arrive who :: rest)
    (hquiet : s.env.rst = true ∨ ∀ a others, arbitrate who = some (a, others) → s.env.streams.get a = []) :
    ∃ l, step s = .next (s.setSchedule l) := by
  rw [step_arrive hschedule]
  unfold arriveStep
  split
  · exact ⟨rest, rfl⟩
  · rename_i hreleased
    split
    · exact ⟨rest, rfl⟩
    · rename_i a others harbitrate
      have hsilent := hquiet.resolve_left hreleased a others harbitrate
      exact ⟨waiting others rest, agentStep_silent (s := s.setSchedule _) hsilent⟩

end QuietEvents

/-- Settles O10, event by event: the step is known at each, and what it leaves is seen in the state. -/
theorem eventsWithoutRstOrCommandChangeNoElement : Obligations.EventsWithoutRstOrCommandChangeNoElement := by
  intro s hnoRst hcase
  cases hschedule : s.env.schedule with
  | nil => exact ⟨s, step_idle hschedule, rfl, rfl, by simp, fun _ => rfl⟩
  | cons event rest =>
    cases event with
    | arrive who =>
      have hquiet : s.env.rst = true ∨ ∀ a others, arbitrate who = some (a, others) → s.env.streams.get a = [] := by
        simpa [hschedule] using hcase
      obtain ⟨l, hstep⟩ := step_quiet_arrival hschedule hquiet
      exact ⟨_, hstep, rfl, rfl, by simp, fun _ => rfl⟩
    | rst level =>
      cases level with
      | false => exact ⟨_, step_rst hschedule, rfl, rfl, by simp, fun _ => rfl⟩
      | true => exact absurd hschedule (hnoRst rest)
    | take =>
      exact ⟨_, step_take hschedule, rfl, rfl, fun _ _ => List.drop_one.symm, fun hnoTake => absurd rfl (hnoTake rest)⟩

end Sys2Proof.PortProofs
end

section
/-! Reset (spec/70_reset_and_hazards.md): the values it leaves and the state an asserted rst leads to. -/

namespace Sys2Proof.ResetProofs

open Sys2Proof.Machine

/-- The motors off, the weapon idle, the indicators off (R311). -/
theorem outputs_reset : State.reset.outputs = ⟨0, 0, 0, false, false, false, false⟩ := rfl

theorem faulted_reset : State.reset.faulted = false := rfl

/-- The output signals copy elements of the block, which the environment and the index of the free values are not (R7). -/
theorem outputs_with_env_free (s : State) (env : Environment) (free : Nat) :
    { s with env := env, free := free }.outputs = s.outputs := rfl

/-- Of the state before an asserted rst only the streams, the events to come and the index of the free values are left. -/
theorem step_asserted_rst {s : State} {rest : List Event} (hschedule : s.env.schedule = .rst true :: rest) :
    step s = .next { State.reset with env := ⟨true, s.env.streams, rest⟩, free := s.free } :=
  PortProofs.step_rst hschedule

/-- Settles O9: the state after the step is that of reset but for the environment and the free-value index. -/
theorem assertedRstReturnsEveryElement : Obligations.AssertedRstReturnsEveryElement := by
  intro s rest hschedule
  have houtputs := (outputs_with_env_free State.reset ⟨true, s.env.streams, rest⟩ s.free).trans outputs_reset
  exact ⟨_, step_asserted_rst hschedule, rfl, houtputs, rfl, rfl, rfl⟩

/-- Settles O11: each unit of the reset state is the one that R311 lists. -/
theorem resetLeavesEveryElementAtItsValue : Obligations.ResetLeavesEveryElementAtItsValue := by
  refine ⟨?dec, ?chan, ?ind, ?seq, ?fs, ?cal, ?inp, ?loop, ?pid, ?err, ?resp, outputs_reset⟩
  all_goals rfl

/-- Settles O13: reset is the starting case of the invariant that every step keeps. -/
theorem resetMeetsTheInvariant : Obligations.ResetMeetsTheInvariant := ⟨InvariantProofs.reset_inv, faulted_reset⟩

end Sys2Proof.ResetProofs
end
